-- ==== Sys2Proof/Word.lean ====
section
/-! DEFINITION. The data the block moves (00_scope.md R5, R8; 10_state.md R41): bytes, host addresses, and the three
fixed-size arrays of bytes the spec names. -/

namespace Sys2Proof

/-- An unsigned 8-bit byte, bit 0 the least significant (00_scope.md R5, R8). -/
abbrev Byte := BitVec 8

/-- An address of the host register space, 12 bits (20_memory.md R60). -/
abbrev Addr := BitVec 12

/-- A flat 16-byte string, in increasing index order: a plaintext, a key or a round key (00_scope.md R5). -/
abbrev Block := Vector Byte 16

/-- The 176 bytes of the expanded key, eleven round keys of 16 bytes (00_scope.md R5, 10_state.md R32, R41). -/
abbrev ExpandedKey := Vector Byte 176

/-- A 4 × 4 matrix of bytes: four rows of four columns (00_scope.md R5, 10_state.md R41). -/
abbrev StateMatrix := Vector (Vector Byte 4) 4

/-- The number of a round key, 0 to 10 (00_scope.md R5). -/
abbrev Round := Fin 11

end Sys2Proof
end

