-- ==== Sys2Proof/Syntax.lean ====
section
/-! DEFINITION. The ten commands of the block, one constructor for each row of spec/opcode_table.json
(30_encoding.md R92). -/

namespace Sys2Proof

/-- A command (30_encoding.md R90, R92). Only ARK takes an operand from the command byte: its 4-bit ARG field,
the round number (R93). -/
inductive Instr where
  | nop
  | clear
  | load
  | expand
  | subb
  | shfr
  | mixc
  | ark (n : BitVec 4)
  | gmul
  | run
  deriving DecidableEq, Repr

end Sys2Proof
end

