-- ==== Sys2Proof/WellFormed.lean ====
section
/-! DEFINITION. The well-formed commands: those that some command byte encodes (30_encoding.md R92, R94). -/

namespace Sys2Proof

/-- The round number of ARK is in 0..10 (30_encoding.md R93, R94 item 3). No other command has an operand. -/
def Instr.wf : Instr → Bool
  | .ark n => decide (n.toNat ≤ 10)
  | .nop => true
  | .clear => true
  | .load => true
  | .expand => true
  | .subb => true
  | .shfr => true
  | .mixc => true
  | .gmul => true
  | .run => true

end Sys2Proof
end

