-- ==== Sys2Proof/Decode.lean ====
section
/-! DEFINITION. The command byte: its two fields, the total decoder, the encoder, and the assembler of command
mnemonics (30_encoding.md R91-R97). -/

namespace Sys2Proof

/-- `OP = c[7:4]` (30_encoding.md R91). -/
def commandOp (c : Byte) : BitVec 4 := c.extractLsb' 4 4

/-- `ARG = c[3:0]` (30_encoding.md R91). -/
def commandArg (c : Byte) : BitVec 4 := c.extractLsb' 0 4

/-- Why a command byte is illegal: the three items of 30_encoding.md R94, and the absence of a byte. -/
inductive DecodeError where
  /-- R94 item 1: OP in 0xA..0xF. -/
  | reservedOpcode
  /-- R94 item 2: ARG ≠ 0 on an opcode that takes no argument. -/
  | argumentNotZero
  /-- R94 item 3: ARK with ARG in 11..15. -/
  | roundOutOfRange
  /-- There is no byte to decode: every command is one byte long (R90). -/
  | noByte
  deriving DecidableEq, Repr

/-- A command whose ARG must be 0 (30_encoding.md R91, R94 item 2). -/
def withoutArgument (c : Byte) (i : Instr) : Except DecodeError Instr :=
  if commandArg c = 0 then .ok i else .error .argumentNotZero

/-- The verdict on one command byte, total over all 256 (30_encoding.md R92, R94, R95). -/
def decodeByte (c : Byte) : Except DecodeError Instr :=
  match (commandOp c).toNat with
  | 0x0 => withoutArgument c .nop
  | 0x1 => withoutArgument c .clear
  | 0x2 => withoutArgument c .load
  | 0x3 => withoutArgument c .expand
  | 0x4 => withoutArgument c .subb
  | 0x5 => withoutArgument c .shfr
  | 0x6 => withoutArgument c .mixc
  | 0x7 => if (commandArg c).toNat ≤ 10 then .ok (.ark (commandArg c)) else .error .roundOutOfRange
  | 0x8 => withoutArgument c .gmul
  | 0x9 => withoutArgument c .run
  | _ => .error .reservedOpcode

/-- The decoder on a list of bytes: one command and the bytes after it. Every command is one byte long (R90). -/
def decode : List Byte → Except DecodeError (Instr × List Byte)
  | [] => .error .noByte
  | c :: rest => (decodeByte c).map fun i => (i, rest)

/-- The legal command a byte stands for, `none` for an illegal byte (30_encoding.md R95). -/
def legalCommand (c : Byte) : Option Instr := (decodeByte c).toOption

/-- The command byte of a command: the "command bytes" column of 30_encoding.md R92. -/
def encodeByte : Instr → Byte
  | .nop => 0x00
  | .clear => 0x10
  | .load => 0x20
  | .expand => 0x30
  | .subb => 0x40
  | .shfr => 0x50
  | .mixc => 0x60
  | .ark n => 0x70 ||| n.setWidth 8
  | .gmul => 0x80
  | .run => 0x90

/-- The bytes of a command in order: one byte (30_encoding.md R90). -/
def encode (i : Instr) : List Byte := [encodeByte i]

/-- The host's question: what this decoder reads from a command whose bits are `w`, `nbits` of them given by the
table and the bits above them 0. A command is one byte (30_encoding.md R90). -/
def decodeTableWord (nbits w : Nat) : Option Instr :=
  match decode [BitVec.ofNat 8 (w % 2 ^ nbits)] with
  | .ok (i, _) => some i
  | .error _ => none

/-- The ten command mnemonics of a host script (30_encoding.md R97). -/
inductive Mnemonic where
  | NOP | CLEAR | LOAD | EXPAND | SUBB | SHFR | MIXC | ARK | GMUL | RUN
  deriving DecidableEq, Repr

/-- A mnemonic with its operands: `ARK n` with n in 0..10, every other mnemonic with none. Anything else is refused
(30_encoding.md R97). -/
def mnemonicCommand : Mnemonic → Option Nat → Option Instr
  | .NOP, none => some .nop
  | .CLEAR, none => some .clear
  | .LOAD, none => some .load
  | .EXPAND, none => some .expand
  | .SUBB, none => some .subb
  | .SHFR, none => some .shfr
  | .MIXC, none => some .mixc
  | .ARK, some n => if n ≤ 10 then some (.ark (BitVec.ofNat 4 n)) else none
  | .GMUL, none => some .gmul
  | .RUN, none => some .run
  | .ARK, none => none
  | .NOP, some _ => none
  | .CLEAR, some _ => none
  | .LOAD, some _ => none
  | .EXPAND, some _ => none
  | .SUBB, some _ => none
  | .SHFR, some _ => none
  | .MIXC, some _ => none
  | .GMUL, some _ => none
  | .RUN, some _ => none

/-- The assembler: the command byte of a mnemonic and its operand, or a refusal (30_encoding.md R97). -/
def assemble (m : Mnemonic) (operand : Option Nat) : Option Byte :=
  (mnemonicCommand m operand).map encodeByte

end Sys2Proof
end

