-- ==== Sys2Proof/Config.lean ====
section
/-! DEFINITION. What is fixed for the block (00_scope.md R5, R6) and what the spec leaves open (00_scope.md R7): the
open values are free, that is constants with no body. -/

namespace Sys2Proof.Config

/-- The only input length the block accepts, in bytes (00_scope.md R5; 60_exceptions.md R211). -/
abbrev inputLength : Byte := 16

/-- The number of trace entries of a Simulation (00_scope.md R5; 43_sequencer.md R174). -/
abbrev traceLength : Nat := 42

/-- FREE VALUE `LAT(op)` less 1 (00_scope.md R7; 70_reset_and_hazards.md R251, R252): for an accepted command byte and
the number of the draw, how many turns the host has before the command completes. Any natural number. (log 2) -/
opaque freeLatency : Byte → Nat → Nat

/-- FREE VALUE `BUSY_READ` (00_scope.md R7; 70_reset_and_hazards.md R245): the byte that draw number `k` gives. (log 3) -/
opaque busyRead : Nat → Byte

/-- FREE VALUE `EK_INIT` (00_scope.md R7; 70_reset_and_hazards.md R241): byte `i` of the expanded-key RAM after the reset
with draw number `k`. (log 4) -/
opaque ekInit : Nat → Fin 176 → Byte

/-- FREE VALUE `TRACE_INIT` (00_scope.md R7; 70_reset_and_hazards.md R241): the byte at offset `off` of trace entry `i`
after the reset with draw number `k`, for each RAM-backed offset of 20_memory.md R63. (log 4) -/
opaque traceInit : Nat → Fin 42 → BitVec 6 → Byte

/-- `LAT(op)` (00_scope.md R7): at least 1, finite, and otherwise free. -/
def latency (op : Byte) (k : Nat) : Nat := freeLatency op k + 1

end Sys2Proof.Config
end

