-- ==== Sys2Proof/Machine/State.lean ====
section
/-! DEFINITION. Everything the spec gives the machine, as plain data (10_state.md), and the machine after reset
(70_reset_and_hazards.md R240, R241). -/

namespace Sys2Proof.Machine

/-- One entry of the trace RAM (10_state.md R33): the RAM-backed fields only. -/
structure TraceEntry where
  stepIndex : Byte
  round : Byte
  kind : Byte
  flags : Byte
  s : StateMatrix
  k : StateMatrix
  deriving DecidableEq, Repr

/-- The engine's phase (10_state.md R37). STATUS.BUSY is 1 exactly in the phase `busy`. -/
inductive Phase where
  | idle
  /-- `pending`: the legal command whose Exec is pending, `none` for an illegal command byte, whose pending result is
  ERR_CMD (log 1). `left`: how many turns the host still has before the completion step (log 2). -/
  | busy (pending : Option Instr) (left : Nat)
  deriving DecidableEq, Repr

/-- What the outside world does to the block, one at a time: the two host bus operations of 20_memory.md R62, the host
loop WAIT of 30_encoding.md R98, and the reset of 70_reset_and_hazards.md R240 (log 8). -/
inductive Action where
  | write (a : Addr) (v : Byte)
  | read (a : Addr)
  | wait
  | reset
  deriving DecidableEq, Repr

/-- Why the machine stops. -/
inductive Fault where
  /-- Raised by a host read of STATUS while LAST_ERR holds one of the codes 4-7, which the engine never produces
  (10_state.md R24; 93_implementation_defined.md U10). Safe: no run from reset reaches it (log 10). -/
  | reservedErrorCode
  deriving DecidableEq, Repr

/-- Why a command has no meaning. No command is refused in this model. -/
inductive Refusal where
  /-- Raised by no arm of `exec`: every command of the opcode table has its meaning. Safe. -/
  | notModelled (mnemonic : String)
  deriving DecidableEq, Repr

/-- The block (10_state.md R22-R37), the host's script, and what the host has read. -/
structure State where
  /-- CMD, the last accepted command byte (R25). -/
  cmd : Byte
  /-- STATUS.EK_VALID (R23). -/
  ekValid : Bool
  /-- STATUS.SIM_VALID (R23). -/
  simValid : Bool
  /-- STATUS.ERR_BUSY (R23). -/
  errBusy : Bool
  /-- STATUS.LAST_ERR (R23, R24). -/
  lastErr : BitVec 3
  /-- PT_LEN (R27). -/
  ptLen : Byte
  /-- KEY_LEN (R27). -/
  keyLen : Byte
  /-- GF_A (R28). -/
  gfA : Byte
  /-- GF_B (R28). -/
  gfB : Byte
  /-- GF_RES (R28). -/
  gfRes : Byte
  /-- TRACE_COUNT (R29). -/
  traceCount : Byte
  /-- PT[0..15] (R30). -/
  pt : Block
  /-- KEY[0..15] (R30). -/
  key : Block
  /-- STATE[0..3][0..3] (R31). -/
  stateMatrix : StateMatrix
  /-- EK[0..175] (R32). -/
  ek : ExpandedKey
  /-- TRACE[0..41] (R33). -/
  trace : Vector TraceEntry 42
  /-- The engine's phase, with STATUS.BUSY and the pending result (R37). -/
  phase : Phase
  /-- The model's own: what the host (and the reset line) will do, in order (log 6). -/
  script : List Action
  /-- The model's own: what each host read returned, newest first (log 6). -/
  reads : List (Addr × Byte)
  /-- The model's own: the number of the next free-value draw (log 5). -/
  draws : Nat
  deriving DecidableEq, Repr

/-- The expanded-key RAM after the reset with draw number `k`: `EK_INIT` (70_reset_and_hazards.md R241). -/
def initialEk (k : Nat) : ExpandedKey := Vector.ofFn fun i => Config.ekInit k i

/-- A matrix window of an entry after reset: 16 drawn bytes from the offset `base` on, row-major (20_memory.md R63). -/
def initialWindow (k : Nat) (e : Fin 42) (base : BitVec 6) : StateMatrix :=
  Vector.ofFn fun r => Vector.ofFn fun c => Config.traceInit k e (base + BitVec.ofNat 6 (4 * r.val + c.val))

/-- The trace RAM after the reset with draw number `k`: `TRACE_INIT` in every RAM-backed field (R241). -/
def initialTrace (k : Nat) : Vector TraceEntry 42 :=
  Vector.ofFn fun e =>
    { stepIndex := Config.traceInit k e 0x00
      round := Config.traceInit k e 0x01
      kind := Config.traceInit k e 0x02
      flags := Config.traceInit k e 0x03
      s := initialWindow k e 0x10
      k := initialWindow k e 0x20 }

/-- The machine right after power-on reset (70_reset_and_hazards.md R240, R241). The script is empty: no program is
placed (log 6). -/
def State.reset : State where
  cmd := 0x00
  ekValid := false
  simValid := false
  errBusy := false
  lastErr := 0
  ptLen := 0
  keyLen := 0
  gfA := 0x00
  gfB := 0x00
  gfRes := 0x00
  traceCount := 0
  pt := Vector.replicate 16 0x00
  key := Vector.replicate 16 0x00
  stateMatrix := Vector.replicate 4 (Vector.replicate 4 0x00)
  ek := initialEk 0
  trace := initialTrace 0
  phase := .idle
  script := []
  reads := []
  draws := 1

end Sys2Proof.Machine
end

