-- ==== Sys2Proof/Machine/Flags.lean ====
section
/-! DEFINITION. STATUS: its byte and the outcome codes (10_state.md R23, R24; 60_exceptions.md R210). -/

namespace Sys2Proof.Machine

/-- Outcome code 0 of 60_exceptions.md R210. -/
def codeOk : BitVec 3 := 0

/-- Outcome code 1, ERR_LEN (60_exceptions.md R210, R211). -/
def errLen : BitVec 3 := 1

/-- Outcome code 2, ERR_CMD (60_exceptions.md R210, R213). -/
def errCmd : BitVec 3 := 2

/-- Outcome code 3, ERR_SEQ (60_exceptions.md R210, R214). -/
def errSeq : BitVec 3 := 3

/-- STATUS.BUSY: `phase` equals it at all times (10_state.md R37). -/
def State.isBusy (s : State) : Bool :=
  match s.phase with
  | .idle => false
  | .busy _ _ => true

/-- The STATUS byte (10_state.md R23): bit 0 BUSY, bit 1 EK_VALID, bit 2 SIM_VALID, bit 3 ERR_BUSY, bits 6:4 LAST_ERR,
bit 7 hard-wired 0. -/
def State.status (s : State) : Byte :=
  0#1 ++ s.lastErr ++ BitVec.ofBool s.errBusy ++ BitVec.ofBool s.simValid ++ BitVec.ofBool s.ekValid ++ BitVec.ofBool s.isBusy

/-- LAST_ERR holds one of the codes 0-3 (10_state.md R24). -/
def State.knownErrorCode (s : State) : Bool := decide (s.lastErr ≤ 3)

end Sys2Proof.Machine
end

