-- ==== Sys2Proof/Machine/Operands.lean ====
section
/-! DEFINITION. The operands of the commands: matrices by row and column, the conversion between flat strings and
matrices, and the round keys (00_scope.md R10, R11; 30_encoding.md R93). -/

namespace Sys2Proof.Machine

/-- `M[r][c]` (00_scope.md R9). -/
def entry (m : StateMatrix) (r c : Fin 4) : Byte := (m.get r).get c

/-- The matrix whose byte at row `r`, column `c` is `f r c`: a fresh value (00_scope.md R12). -/
def matrixOf (f : Fin 4 → Fin 4 → Byte) : StateMatrix := Vector.ofFn fun r => Vector.ofFn fun c => f r c

/-- The matrix of zero bytes. -/
def zeroMatrix : StateMatrix := matrixOf fun _ _ => 0x00

/-- The flat index `r + 4*c` of row `r`, column `c` (00_scope.md R10). -/
def flatIndex (r c : Fin 4) : Fin 16 := ⟨r.val + 4 * c.val, by omega⟩

/-- `toMatrix` of 00_scope.md R10: `M[r][c] = b[r + 4*c]`. -/
def toMatrix (b : Block) : StateMatrix := matrixOf fun r c => b.get (flatIndex r c)

/-- `fromMatrix` of 00_scope.md R10: `b[i] = M[i mod 4][i div 4]` (the only flattening, 90_conflicts.md C1). -/
def fromMatrix (m : StateMatrix) : Block :=
  Vector.ofFn fun i => entry m ⟨i.val % 4, by omega⟩ ⟨i.val / 4, by omega⟩

/-- The slice `EK[16n .. 16n+15]` (00_scope.md R11). -/
def roundKeyBytes (ek : ExpandedKey) (n : Round) : Block :=
  Vector.ofFn fun i => ek.get ⟨16 * n.val + i.val, by omega⟩

/-- `RK(n) = toMatrix(EK[16n .. 16n+15])` (00_scope.md R11). -/
def roundKey (ek : ExpandedKey) (n : Round) : StateMatrix := toMatrix (roundKeyBytes ek n)

end Sys2Proof.Machine
end

