-- ==== Sys2Proof/Machine/Ops.lean ====
section
/-! DEFINITION. The named operations on the block's registers that are not a command's meaning: recording an outcome,
accepting a command, appending to a port, dropping a write, clearing the registers, and resetting the block (10_state.md
R37; 44_control.md R201, R202; 70_reset_and_hazards.md R240, R241, R246). Recording an error, `raiseCmdError`, is all
that this hardware has of an exception; there is no return from it (60_exceptions.md R218, R219). -/

namespace Sys2Proof.Machine

/-- The end of a command: the completion step records its outcome code and returns the engine to IDLE (10_state.md
R37). It never writes ERR_BUSY. -/
def completeWith (code : BitVec 3) (s : State) : State := { s with lastErr := code, phase := .idle }

/-- `raise CmdError(code)` at completion: LAST_ERR becomes the code and nothing else is written (00_scope.md R9,
60_exceptions.md R212, R218). -/
def raiseCmdError (code : BitVec 3) (s : State) : State := completeWith code s

/-- A command that succeeds records the code 0 beside the results it has written (60_exceptions.md R210). -/
def succeed (s : State) : State := completeWith codeOk s

/-- The legal commands whose acceptance invalidates the Simulation: RUN and CLEAR (10_state.md R37). -/
def invalidatesSimulation : Option Instr → Bool
  | some .run => true
  | some .clear => true
  | some .nop => false
  | some .load => false
  | some .expand => false
  | some .subb => false
  | some .shfr => false
  | some .mixc => false
  | some (.ark _) => false
  | some .gmul => false
  | none => false

/-- The legal command whose acceptance clears ERR_BUSY: CLEAR (10_state.md R37). -/
def clearsErrBusy : Option Instr → Bool
  | some .clear => true
  | some .run => false
  | some .nop => false
  | some .load => false
  | some .expand => false
  | some .subb => false
  | some .shfr => false
  | some .mixc => false
  | some (.ark _) => false
  | some .gmul => false
  | none => false

/-- The acceptance of the command byte `c` (10_state.md R37), with `left` host turns before its completion: CMD <- c,
BUSY <- 1, and for the legal bytes of RUN and CLEAR only (30_encoding.md R94) the clearing of SIM_VALID, TRACE_COUNT
and, for CLEAR, ERR_BUSY. What is pending is the command's Exec, or ERR_CMD for an illegal byte (log 1). -/
def beginCommand (c : Byte) (left : Nat) (s : State) : State :=
  { s with
    cmd := c
    simValid := if invalidatesSimulation (legalCommand c) then false else s.simValid
    traceCount := if invalidatesSimulation (legalCommand c) then 0 else s.traceCount
    errBusy := if clearsErrBusy (legalCommand c) then false else s.errBusy
    phase := .busy (legalCommand c) left }

/-- A host write of `c` to CMD while idle is accepted (10_state.md R25, R37); how many turns the host then has before
the completion is drawn afresh (00_scope.md R7, `LAT`; log 2). -/
def acceptCommand (c : Byte) (s : State) : State :=
  beginCommand c (Config.freeLatency c s.draws) { s with draws := s.draws + 1 }

/-- `min(n + 1, 255)` on a length counter (44_control.md R202; 10_state.md R27: it saturates). -/
def countByte (n : Byte) : Byte := if n = 255 then 255 else n + 1

/-- Byte `v` appended to a 16-byte buffer whose counter is `n`: stored at index `n` if n < 16, else not stored
(44_control.md R202). -/
def appendByte (n v : Byte) (b : Block) : Block := b.setIfInBounds n.toNat v

/-- A host write to PT_PORT while idle (44_control.md R202). -/
def appendPlaintext (v : Byte) (s : State) : State :=
  { s with pt := appendByte s.ptLen v s.pt, ptLen := countByte s.ptLen }

/-- A host write to KEY_PORT while idle (44_control.md R202). -/
def appendKey (v : Byte) (s : State) : State :=
  { s with key := appendByte s.keyLen v s.key, keyLen := countByte s.keyLen }

/-- A host write while busy is dropped; its only effect is ERR_BUSY <- 1 (70_reset_and_hazards.md R246). -/
def dropWrite (s : State) : State := { s with errBusy := true }

/-- The writes of CLEAR's Exec but LAST_ERR (44_control.md R201): buffers, counters, STATE, the GF registers and
EK_VALID; EK, the trace RAM and CMD keep their contents. -/
def clearRegisters (s : State) : State :=
  { s with
    pt := Vector.replicate 16 0x00
    key := Vector.replicate 16 0x00
    ptLen := 0
    keyLen := 0
    stateMatrix := zeroMatrix
    gfA := 0x00
    gfB := 0x00
    gfRes := 0x00
    ekValid := false }

/-- The reset of the block (70_reset_and_hazards.md R240, R241): every register at its reset value, IDLE with no
pending result, and fresh draws in both RAMs. The host's script and what it has read are outside the block (log 8). -/
def resetBlock (s : State) : State :=
  { State.reset with
    ek := initialEk s.draws
    trace := initialTrace s.draws
    script := s.script
    reads := s.reads
    draws := s.draws + 1 }

end Sys2Proof.Machine
end

