-- ==== Sys2Proof/Machine/Field.lean ====
section
/-! DEFINITION. The GF(2⁸) multiplier, the S-box, the round constants, and the command GMUL (40_primitives.md). -/

namespace Sys2Proof.Machine

/-- Left-shift by one bit, masked to 8 bits, with 0x1B XORed in when the pre-shift high bit is set: the step of `a` in
40_primitives.md R110. -/
def shiftReduce (a : Byte) : Byte := if a &&& 0x80 ≠ 0 then (a <<< 1) ^^^ 0x1B else a <<< 1

/-- `n` turns of the loop of 40_primitives.md R110 from the accumulator `p`. -/
def gmulLoop : Nat → Byte → Byte → Byte → Byte
  | 0, p, _, _ => p
  | n + 1, p, a, b => gmulLoop n (if b &&& 0x01 = 1 then p ^^^ a else p) (shiftReduce a) (b >>> 1)

/-- `gmul(a, b)`: multiplication in GF(2⁸) by the add-and-shift method, 8 turns (40_primitives.md R110). -/
def gmul (a b : Byte) : Byte := gmulLoop 8 0x00 a b

/-- The S-box table of 40_primitives.md R112, one row a line, column 0 the most significant byte of its row. The
contents are the standard AES table, which the spec supplies from general knowledge (log 9). -/
def sboxRows : Vector (BitVec 128) 16 := #v[
  0x637C777BF26B6FC53001672BFED7AB76,
  0xCA82C97DFA5947F0ADD4A2AF9CA472C0,
  0xB7FD9326363FF7CC34A5E5F171D83115,
  0x04C723C31896059A071280E2EB27B275,
  0x09832C1A1B6E5AA0523BD6B329E32F84,
  0x53D100ED20FCB15B6ACBBE394A4C58CF,
  0xD0EFAAFB434D338545F9027F503C9FA8,
  0x51A3408F929D38F5BCB6DA2110FFF3D2,
  0xCD0C13EC5F974417C4A77E3D645D1973,
  0x60814FDC222A908846EEB814DE5E0BDB,
  0xE0323A0A4906245CC2D3AC629195E479,
  0xE7C8376D8DD54EA96C56F4EA657AAE08,
  0xBA78252E1CA6B4C6E8DD741F4BBD8B8A,
  0x703EB5664803F60E613557B986C11D9E,
  0xE1F8981169D98E949B1E87E9CE5528DF,
  0x8CA1890DBFE6426841992D0FB054BB16]

/-- `SBOX[v]`, which is `sub_byte(v)`: row `v[7:4]`, column `v[3:0]` (40_primitives.md R112, R113). -/
def sbox (v : Byte) : Byte :=
  (sboxRows.get (v.extractLsb' 4 4).toFin).extractLsb' (8 * (15 - (v.extractLsb' 0 4).toNat)) 8

/-- The round-constant table (40_primitives.md R114). Entry 0 is unused (log 15). -/
def rconTable : Vector Byte 11 := #v[0x00, 0x01, 0x02, 0x04, 0x08, 0x10, 0x20, 0x40, 0x80, 0x1B, 0x36]

/-- `RCON[i]` (40_primitives.md R114). -/
def rcon (i : Fin 11) : Byte := rconTable.get i

/-- GMUL (40_primitives.md R115): `GF_RES <- gmul(GF_A, GF_B)`, LAST_ERR <- 0. -/
def execGmul (s : State) : Host.Outcome State Fault Refusal :=
  .next (succeed { s with gfRes := gmul s.gfA s.gfB })

end Sys2Proof.Machine
end

