-- ==== Sys2Proof/Machine/AddressMap.lean ====
section
/-! DEFINITION. The host address map (20_memory.md R61) and the layout of a trace entry (20_memory.md R63). -/

namespace Sys2Proof.Machine

/-- What an address of the host register space is: one row of 20_memory.md R61 each. -/
inductive Place where
  | status
  | cmd
  | ptPort
  | keyPort
  | ptLen
  | keyLen
  | gfA
  | gfB
  | gfRes
  | traceCount
  | pt (i : Fin 16)
  | key (i : Fin 16)
  | stateMatrix (r c : Fin 4)
  | sbox (v : Byte)
  | rcon (i : Fin 11)
  | ek (i : Fin 176)
  | trace (k : Fin 42) (off : BitVec 6)
  | reserved
  deriving DecidableEq, Repr

/-- The row of a matrix window byte: `off[3:2]` of the offset `4r + c` (20_memory.md R64). -/
def windowRow (off : BitVec 4) : Fin 4 := (off.extractLsb' 2 2).toFin

/-- The column of a matrix window byte: `off[1:0]` of the offset `4r + c` (20_memory.md R64). -/
def windowColumn (off : BitVec 4) : Fin 4 := (off.extractLsb' 0 2).toFin

/-- The ten registers and six reserved addresses 0x000-0x00F (20_memory.md R61). -/
def registerPlace (low : BitVec 4) : Place :=
  match low.toNat with
  | 0x0 => .status
  | 0x1 => .cmd
  | 0x2 => .ptPort
  | 0x3 => .keyPort
  | 0x4 => .ptLen
  | 0x5 => .keyLen
  | 0x6 => .gfA
  | 0x7 => .gfB
  | 0x8 => .gfRes
  | 0x9 => .traceCount
  | _ => .reserved

/-- The address map (20_memory.md R61): every address belongs to exactly one row. -/
def place (a : Addr) : Place :=
  let n := a.toNat
  let low := a.extractLsb' 0 4
  if n < 0x010 then registerPlace low
  else if n < 0x020 then .pt low.toFin
  else if n < 0x030 then .key low.toFin
  else if n < 0x040 then .stateMatrix (windowRow low) (windowColumn low)
  else if n < 0x100 then .reserved
  else if n < 0x200 then .sbox (a.extractLsb' 0 8)
  else if n < 0x300 then
    if h : n - 0x200 < 11 then .rcon ⟨n - 0x200, h⟩ else .reserved
  else if n < 0x400 then
    if h : n - 0x300 < 176 then .ek ⟨n - 0x300, h⟩ else .reserved
  else
    if h : (n - 0x400) / 64 < 42 then .trace ⟨(n - 0x400) / 64, h⟩ (a.extractLsb' 0 6) else .reserved

/-- The byte at offset `off` of a trace entry (20_memory.md R63): the header, the two matrix windows, and the reserved
offsets, which read 0x00. -/
def traceEntryByte (e : TraceEntry) (off : BitVec 6) : Byte :=
  let low := off.extractLsb' 0 4
  match (off.extractLsb' 4 2).toNat with
  | 0 =>
    match low.toNat with
    | 0x0 => e.stepIndex
    | 0x1 => e.round
    | 0x2 => e.kind
    | 0x3 => e.flags
    | _ => 0x00
  | 1 => entry e.s (windowRow low) (windowColumn low)
  | 2 => entry e.k (windowRow low) (windowColumn low)
  | _ => 0x00

/-- The "host read" column of 20_memory.md R61: the byte a place holds. Ports and reserved addresses read 0x00 (10_state.md
R26; 20_memory.md R67). -/
def placeValue (s : State) : Place → Byte
  | .status => s.status
  | .cmd => s.cmd
  | .ptPort => 0x00
  | .keyPort => 0x00
  | .ptLen => s.ptLen
  | .keyLen => s.keyLen
  | .gfA => s.gfA
  | .gfB => s.gfB
  | .gfRes => s.gfRes
  | .traceCount => s.traceCount
  | .pt i => s.pt.get i
  | .key i => s.key.get i
  | .stateMatrix r c => entry s.stateMatrix r c
  | .sbox v => Sys2Proof.Machine.sbox v
  | .rcon i => Sys2Proof.Machine.rcon i
  | .ek i => s.ek.get i
  | .trace k off => traceEntryByte (s.trace.get k) off
  | .reserved => 0x00

/-- The byte at an address: what a read of it returns while the engine is idle (20_memory.md R61). -/
def State.peek (s : State) (a : Addr) : Byte := placeValue s (place a)

/-- The offsets of a trace entry that storage stands behind: the four header bytes and the two matrix windows. Every
other offset is reserved (20_memory.md R63). -/
def ramBackedOffset (off : BitVec 6) : Bool :=
  decide (off.toNat < 0x04) || (decide (0x10 ≤ off.toNat) && decide (off.toNat < 0x30))

/-- The places whose reads return `BUSY_READ` draws while busy (70_reset_and_hazards.md R245): the input buffers and
their counters, the GF registers, STATE, EK and the trace windows, but for the reserved offsets of an entry, which are
reserved addresses (20_memory.md R67) and keep reading 0x00 (log 11). -/
def drawnWhileBusy : Place → Bool
  | .pt _ => true
  | .key _ => true
  | .ptLen => true
  | .keyLen => true
  | .gfA => true
  | .gfB => true
  | .gfRes => true
  | .stateMatrix _ _ => true
  | .ek _ => true
  | .trace _ off => ramBackedOffset off
  | .status => false
  | .cmd => false
  | .traceCount => false
  | .ptPort => false
  | .keyPort => false
  | .sbox _ => false
  | .rcon _ => false
  | .reserved => false

end Sys2Proof.Machine
end

