-- ==== Sys2Proof/Machine/Bus.lean ====
section
/-! DEFINITION. The host bus: one read or write of one byte, and one turn of the host's script (20_memory.md R61, R62,
R66, R67; 44_control.md R202, R203; 70_reset_and_hazards.md R245, R246). -/

namespace Sys2Proof.Machine

/-- The address of STATUS (10_state.md R22). -/
def statusAddr : Addr := 0x000

/-- The address of CMD (10_state.md R22). -/
def cmdAddr : Addr := 0x001

/-- The address of PT_PORT (10_state.md R22). -/
def ptPortAddr : Addr := 0x002

/-- The address of KEY_PORT (10_state.md R22). -/
def keyPortAddr : Addr := 0x003

/-- The effect of a write of `v` to a place while idle: the "host write" column of 20_memory.md R61. -/
def writePlace (v : Byte) (s : State) : Place → State
  | .cmd => acceptCommand v s
  | .ptPort => appendPlaintext v s
  | .keyPort => appendKey v s
  | .gfA => { s with gfA := v }
  | .gfB => { s with gfB := v }
  | .status => s
  | .ptLen => s
  | .keyLen => s
  | .gfRes => s
  | .traceCount => s
  | .pt _ => s
  | .key _ => s
  | .stateMatrix _ _ => s
  | .sbox _ => s
  | .rcon _ => s
  | .ek _ => s
  | .trace _ _ => s
  | .reserved => s

/-- `MemWrite(a, 1, v)` (20_memory.md R62, R66): dropped while busy, else the effect of its place. -/
def hostWrite (a : Addr) (v : Byte) (s : State) : State :=
  if s.isBusy then dropWrite s else writePlace v s (place a)

/-- `MemRead(a, 1)` (20_memory.md R62; 70_reset_and_hazards.md R245): the byte returned, and the state after. Only the
model's own draw counter can move. A read of STATUS with a reserved outcome code faults (log 10). -/
def hostRead (a : Addr) (s : State) : Except Fault (Byte × State) :=
  if s.isBusy && drawnWhileBusy (place a) then
    .ok (Config.busyRead s.draws, { s with draws := s.draws + 1 })
  else if place a = .status ∧ s.knownErrorCode = false then
    .error .reservedErrorCode
  else
    .ok (s.peek a, s)

/-- One read of the host at `a`, recorded in `reads`; `next` gives the rest of the script from the byte read. -/
def recordRead (a : Addr) (next : Byte → List Action) (s : State) : Host.Outcome State Fault Refusal :=
  match hostRead a s with
  | .ok (b, t) => .next { t with reads := (a, b) :: t.reads, script := next b }
  | .error f => .fault f

/-- One action of the outside world, with the rest of the script after it. WAIT is the host loop of 30_encoding.md R98:
it reads STATUS and stays until bit 0 of the byte read is 0. -/
def performAction (act : Action) (rest : List Action) (s : State) : Host.Outcome State Fault Refusal :=
  match act with
  | .write a v => .next (hostWrite a v { s with script := rest })
  | .read a => recordRead a (fun _ => rest) s
  | .wait => recordRead statusAddr (fun b => if b.getLsbD 0 then .wait :: rest else rest) s
  | .reset => .next (resetBlock { s with script := rest })

/-- One turn of the host: the next action of its script, or nothing when the script is at its end (60_exceptions.md
R226: the idle engine keeps all state until the next host write). -/
def hostTurn (s : State) : Host.Outcome State Fault Refusal :=
  match s.script with
  | [] => .next s
  | act :: rest => performAction act rest s

end Sys2Proof.Machine
end

