-- ==== Sys2Proof/Machine/Control.lean ====
section
/-! DEFINITION. The control commands NOP and CLEAR (44_control.md). -/

namespace Sys2Proof.Machine

/-- NOP (44_control.md R200): LAST_ERR <- 0. -/
def execNop (s : State) : Host.Outcome State Fault Refusal := .next (succeed s)

/-- CLEAR (44_control.md R201): registers to their reset values, RAMs kept. SIM_VALID, TRACE_COUNT and ERR_BUSY were
cleared at acceptance (10_state.md R37; `beginCommand`). -/
def execClear (s : State) : Host.Outcome State Fault Refusal := .next (succeed (clearRegisters s))

end Sys2Proof.Machine
end

