-- ==== Sys2Proof/Machine/KeySchedule.lean ====
section
/-! DEFINITION. The key schedule and the command EXPAND (41_key_schedule.md). -/

namespace Sys2Proof.Machine

/-- Four consecutive bytes of the expanded key at a multiple of 4 (00_scope.md glossary, "word"). -/
structure KeyWord where
  b0 : Byte
  b1 : Byte
  b2 : Byte
  b3 : Byte
  deriving DecidableEq, Repr

/-- The XOR of two words, byte by byte. -/
def xorWord (u v : KeyWord) : KeyWord := ⟨u.b0 ^^^ v.b0, u.b1 ^^^ v.b1, u.b2 ^^^ v.b2, u.b3 ^^^ v.b3⟩

/-- `RotWord(a,b,c,d) = (b,c,d,a)` (41_key_schedule.md R133). -/
def rotWord (w : KeyWord) : KeyWord := ⟨w.b1, w.b2, w.b3, w.b0⟩

/-- `SubWord` applies SBOX to each byte (41_key_schedule.md R133). -/
def subWord (w : KeyWord) : KeyWord := ⟨sbox w.b0, sbox w.b1, sbox w.b2, sbox w.b3⟩

/-- Byte `j` of a word. -/
def wordByte (w : KeyWord) : Fin 4 → Byte
  | 0 => w.b0
  | 1 => w.b1
  | 2 => w.b2
  | 3 => w.b3

/-- The round constant of boundary `n`, for n in 1..10; no other boundary exists in the schedule
(41_key_schedule.md R130: "RCON[0] is never read"). -/
def boundaryConstant (n : Nat) : Byte := rcon (Fin.ofNat 11 n)

/-- The transform of the preceding word for word number `j`: at a 16-byte boundary, rotate, substitute and XOR the
round constant into the first byte; elsewhere the identity (41_key_schedule.md R130, R133). -/
def scheduleTransform (j : Nat) (w : KeyWord) : KeyWord :=
  if j % 4 = 0 then xorWord (subWord (rotWord w)) ⟨boundaryConstant (j / 4), 0, 0, 0⟩ else w

/-- Word `j` of the key: `key[4j .. 4j+3]` (41_key_schedule.md R133). -/
def cipherKeyWord (key : Block) (j : Fin 4) : KeyWord :=
  ⟨key.get ⟨4 * j.val, by omega⟩, key.get ⟨4 * j.val + 1, by omega⟩, key.get ⟨4 * j.val + 2, by omega⟩,
    key.get ⟨4 * j.val + 3, by omega⟩⟩

/-- Four consecutive words of the schedule, all that the next word depends on. -/
structure WordWindow where
  w0 : KeyWord
  w1 : KeyWord
  w2 : KeyWord
  w3 : KeyWord
  deriving DecidableEq, Repr

/-- The words `w[j] .. w[j+3]` of the schedule, by the recurrence of 41_key_schedule.md R133:
`w[j+4] = w[j] xor transform(w[j+3])`. -/
def wordWindow (key : Block) : Nat → WordWindow
  | 0 => ⟨cipherKeyWord key 0, cipherKeyWord key 1, cipherKeyWord key 2, cipherKeyWord key 3⟩
  | j + 1 =>
    let w := wordWindow key j
    ⟨w.w1, w.w2, w.w3, xorWord w.w0 (scheduleTransform (j + 4) w.w3)⟩

/-- The word `w[j] = E[4j .. 4j+3]` (41_key_schedule.md R133). -/
def scheduleWord (key : Block) (j : Nat) : KeyWord := (wordWindow key j).w0

/-- `expand_key(key)`: the 176 bytes of the 44 words (41_key_schedule.md R133, the word view of R130). -/
def expandKey (key : Block) : ExpandedKey :=
  Vector.ofFn fun i => wordByte (scheduleWord key (i.val / 4)) ⟨i.val % 4, by omega⟩

/-- Byte `i` of an expanded key under construction. -/
def byteAt (e : ExpandedKey) (i : Nat) : Byte := e.getD i 0x00

/-- One turn of the loop of 41_key_schedule.md R130 at the byte offset `i`, on the bytes so far and the counter `rc`. -/
def byteLoopTurn (acc : ExpandedKey × Nat) (i : Nat) : ExpandedKey × Nat :=
  let e := acc.1
  let rc := acc.2
  let old : KeyWord := ⟨byteAt e (i - 16), byteAt e (i - 15), byteAt e (i - 14), byteAt e (i - 13)⟩
  let t : KeyWord := ⟨byteAt e (i - 4), byteAt e (i - 3), byteAt e (i - 2), byteAt e (i - 1)⟩
  let t' := if i % 16 = 0 then xorWord (subWord (rotWord t)) ⟨boundaryConstant rc, 0, 0, 0⟩ else t
  let w := xorWord old t'
  ((((e.setIfInBounds i w.b0).setIfInBounds (i + 1) w.b1).setIfInBounds (i + 2) w.b2).setIfInBounds (i + 3) w.b3,
    if i % 16 = 0 then rc + 1 else rc)

/-- `expand_key(key)` written as the byte loop of 41_key_schedule.md R130: the key copied, then i = 16, 20, ..., 172
with `rc` from 1. An obligation says that it gives `expandKey`. -/
def expandKeyByBytes (key : Block) : ExpandedKey :=
  let start : ExpandedKey := Vector.ofFn fun i => key.getD i.val 0x00
  ((List.range' 16 40 4).foldl byteLoopTurn (start, 1)).1

/-- EXPAND (41_key_schedule.md R131): ERR_LEN when KEY_LEN ≠ 16, else EK <- expand_key(KEY) and EK_VALID <- 1. -/
def execExpand (s : State) : Host.Outcome State Fault Refusal :=
  if s.keyLen = Config.inputLength then
    .next (succeed { s with ek := expandKey s.key, ekValid := true })
  else
    .next (raiseCmdError errLen s)

end Sys2Proof.Machine
end

