-- ==== Sys2Proof/Machine/Transforms.lean ====
section
/-! DEFINITION. The four state transformations and the single-step commands LOAD, SUBB, SHFR, MIXC and ARK
(42_transforms.md). -/

namespace Sys2Proof.Machine

/-- `SubBytes(M)` (42_transforms.md R140). -/
def subBytes (m : StateMatrix) : StateMatrix := matrixOf fun r c => sbox (entry m r c)

/-- `ShiftRows(M)[r][c] = M[r][(c + r) mod 4]` (42_transforms.md R141); addition in `Fin 4` is modulo 4. -/
def shiftRows (m : StateMatrix) : StateMatrix := matrixOf fun r c => entry m r (c + r)

/-- Row `r` of the MixColumns matrix applied to the column `(s0, s1, s2, s3)` (42_transforms.md R142). -/
def mixColumn (s0 s1 s2 s3 : Byte) : Fin 4 → Byte
  | 0 => gmul 2 s0 ^^^ gmul 3 s1 ^^^ s2 ^^^ s3
  | 1 => s0 ^^^ gmul 2 s1 ^^^ gmul 3 s2 ^^^ s3
  | 2 => s0 ^^^ s1 ^^^ gmul 2 s2 ^^^ gmul 3 s3
  | 3 => gmul 3 s0 ^^^ s1 ^^^ s2 ^^^ gmul 2 s3

/-- `MixColumns(M)` (42_transforms.md R142): every column from the old matrix. -/
def mixColumns (m : StateMatrix) : StateMatrix :=
  matrixOf fun r c => mixColumn (entry m 0 c) (entry m 1 c) (entry m 2 c) (entry m 3 c) r

/-- `AddRoundKey(M, K)` (42_transforms.md R143). -/
def addRoundKey (m k : StateMatrix) : StateMatrix := matrixOf fun r c => entry m r c ^^^ entry k r c

/-- LOAD (42_transforms.md R144): ERR_LEN when PT_LEN ≠ 16, else STATE <- toMatrix(PT). -/
def execLoad (s : State) : Host.Outcome State Fault Refusal :=
  if s.ptLen = Config.inputLength then
    .next (succeed { s with stateMatrix := toMatrix s.pt })
  else
    .next (raiseCmdError errLen s)

/-- SUBB (42_transforms.md R145). -/
def execSubb (s : State) : Host.Outcome State Fault Refusal :=
  .next (succeed { s with stateMatrix := subBytes s.stateMatrix })

/-- SHFR (42_transforms.md R146). -/
def execShfr (s : State) : Host.Outcome State Fault Refusal :=
  .next (succeed { s with stateMatrix := shiftRows s.stateMatrix })

/-- MIXC (42_transforms.md R147). -/
def execMixc (s : State) : Host.Outcome State Fault Refusal :=
  .next (succeed { s with stateMatrix := mixColumns s.stateMatrix })

/-- ARK n (42_transforms.md R148): ERR_CMD for n > 10, checked first (60_exceptions.md R215), then ERR_SEQ when
EK_VALID = 0, else STATE <- AddRoundKey(STATE, RK(n)). No command byte decodes to n > 10 (log 14). -/
def execArk (n : BitVec 4) (s : State) : Host.Outcome State Fault Refusal :=
  if h : n.toNat < 11 then
    if s.ekValid then
      .next (succeed { s with stateMatrix := addRoundKey s.stateMatrix (roundKey s.ek ⟨n.toNat, h⟩) })
    else
      .next (raiseCmdError errSeq s)
  else
    .next (raiseCmdError errCmd s)

end Sys2Proof.Machine
end

