-- ==== Sys2Proof/Machine/Sequencer.lean ====
section
/-! DEFINITION. The 42-step trace-step sequencer and the command RUN (43_sequencer.md). -/

namespace Sys2Proof.Machine

/-- The six step kinds (10_state.md R34). -/
inductive StepKind where
  | initial
  | subBytes
  | shiftRows
  | mixColumns
  | addRoundKey
  | final
  deriving DecidableEq, Repr

/-- The step-kind code held in TRACE[k].KIND (10_state.md R34). -/
def stepKindCode : StepKind → Byte
  | .initial => 0
  | .subBytes => 1
  | .shiftRows => 2
  | .mixColumns => 3
  | .addRoundKey => 4
  | .final => 5

/-- HAS_RK: a step carries a round key exactly when it is an ADD_ROUND_KEY step (10_state.md R35). -/
def hasRoundKey : StepKind → Bool
  | .addRoundKey => true
  | .initial => false
  | .subBytes => false
  | .shiftRows => false
  | .mixColumns => false
  | .final => false

/-- One step of the schedule: its round and its kind (43_sequencer.md R171). -/
structure ScheduleStep where
  round : Round
  kind : StepKind
  deriving DecidableEq, Repr

/-- The four steps of a full round, in order (43_sequencer.md R170, "3. full rounds"). -/
def fullRound (r : Round) : List ScheduleStep :=
  [⟨r, .subBytes⟩, ⟨r, .shiftRows⟩, ⟨r, .mixColumns⟩, ⟨r, .addRoundKey⟩]

/-- The 42-step schedule in the order of `generate_simulation` (43_sequencer.md R170, R171). -/
def schedule : List ScheduleStep :=
  [⟨0, .initial⟩, ⟨0, .addRoundKey⟩]
    ++ ([1, 2, 3, 4, 5, 6, 7, 8, 9] : List Round).flatMap fullRound
    ++ [⟨10, .subBytes⟩, ⟨10, .shiftRows⟩, ⟨10, .addRoundKey⟩, ⟨10, .final⟩]

/-- What a step does to the working matrix (43_sequencer.md R170, R172): INITIAL and FINAL leave it alone. -/
def applyStep (ek : ExpandedKey) (st : ScheduleStep) (m : StateMatrix) : StateMatrix :=
  match st.kind with
  | .initial => m
  | .subBytes => subBytes m
  | .shiftRows => shiftRows m
  | .mixColumns => mixColumns m
  | .addRoundKey => addRoundKey m (roundKey ek st.round)
  | .final => m

/-- `emit` of 43_sequencer.md R170: entry `k`, with the matrix `m` after the step's operation (R172). -/
def traceEntry (ek : ExpandedKey) (k : Nat) (st : ScheduleStep) (m : StateMatrix) : TraceEntry where
  stepIndex := BitVec.ofNat 8 k
  round := BitVec.ofNat 8 st.round.val
  kind := stepKindCode st.kind
  flags := if hasRoundKey st.kind then 1 else 0
  s := m
  k := if hasRoundKey st.kind then roundKey ek st.round else zeroMatrix

/-- The entries of a list of steps, from step number `k` and the working matrix `m` on. -/
def runSteps (ek : ExpandedKey) : List ScheduleStep → Nat → StateMatrix → List TraceEntry
  | [], _, _ => []
  | st :: rest, k, m => traceEntry ek k st (applyStep ek st m) :: runSteps ek rest (k + 1) (applyStep ek st m)

/-- The working matrix after a list of steps. -/
def matrixAfter (ek : ExpandedKey) : List ScheduleStep → StateMatrix → StateMatrix
  | [], m => m
  | st :: rest, m => matrixAfter ek rest (applyStep ek st m)

/-- A list of steps gives one entry for each step. -/
theorem runSteps_length (ek : ExpandedKey) (steps : List ScheduleStep) (k : Nat) (m : StateMatrix) :
    (runSteps ek steps k m).length = steps.length := by
  induction steps generalizing k m with
  | nil => rfl
  | cons st rest ih => simp [runSteps, ih]

/-- The expanded key, the trace and the last working matrix of one RUN (43_sequencer.md R170). -/
structure Simulation where
  ek : ExpandedKey
  trace : Vector TraceEntry 42
  final : StateMatrix
  deriving DecidableEq, Repr

/-- The 42 entries of the whole schedule, from the plaintext matrix on. -/
def simulationTrace (ek : ExpandedKey) (m : StateMatrix) : Vector TraceEntry 42 :=
  ⟨(runSteps ek schedule 0 m).toArray, by simp [runSteps_length, schedule, fullRound]⟩

/-- `generate_simulation(P, K)` (43_sequencer.md R170). -/
def generateSimulation (pt key : Block) : Simulation where
  ek := expandKey key
  trace := simulationTrace (expandKey key) (toMatrix pt)
  final := matrixAfter (expandKey key) schedule (toMatrix pt)

/-- The writes of a successful RUN (43_sequencer.md R170): EK, the whole trace, STATE (R175) and the three marks of
validity. -/
def storeSimulation (sim : Simulation) (s : State) : State :=
  { s with
    ek := sim.ek
    ekValid := true
    trace := sim.trace
    stateMatrix := sim.final
    traceCount := BitVec.ofNat 8 Config.traceLength
    simValid := true }

/-- RUN (43_sequencer.md R170): ERR_LEN when PT_LEN ≠ 16 or KEY_LEN ≠ 16 (R177), else the Simulation of PT under KEY.
SIM_VALID and TRACE_COUNT were cleared at acceptance (10_state.md R37; `beginCommand`). -/
def execRun (s : State) : Host.Outcome State Fault Refusal :=
  if s.ptLen = Config.inputLength ∧ s.keyLen = Config.inputLength then
    .next (succeed (storeSimulation (generateSimulation s.pt s.key) s))
  else
    .next (raiseCmdError errLen s)

end Sys2Proof.Machine
end

