-- ==== Sys2Proof/Machine/Dispatch.lean ====
section
/-! DEFINITION. The meaning of every command: what its completion leaves of the state it runs on (10_state.md R37). -/

namespace Sys2Proof.Machine

def exec (i : Instr) (s : State) : Host.Outcome State Fault Refusal :=
  match i with
  | .nop => Sys2Proof.Machine.execNop s
  | .clear => Sys2Proof.Machine.execClear s
  | .load => Sys2Proof.Machine.execLoad s
  | .expand => Sys2Proof.Machine.execExpand s
  | .subb => Sys2Proof.Machine.execSubb s
  | .shfr => Sys2Proof.Machine.execShfr s
  | .mixc => Sys2Proof.Machine.execMixc s
  | .ark n => Sys2Proof.Machine.execArk n s
  | .gmul => Sys2Proof.Machine.execGmul s
  | .run => Sys2Proof.Machine.execRun s

end Sys2Proof.Machine
end

