-- ==== Sys2Proof/Machine/Engine.lean ====
section
/-! DEFINITION. The engine's completion step, and whose turn it is (10_state.md R37; 70_reset_and_hazards.md R251). -/

namespace Sys2Proof.Machine

/-- The completion step (10_state.md R37): the pending command's Exec, or ERR_CMD for an illegal byte (30_encoding.md
R94; 60_exceptions.md R213). -/
def completeCommand (pending : Option Instr) (s : State) : Host.Outcome State Fault Refusal :=
  match pending with
  | some i => exec i s
  | none => .next (raiseCmdError errCmd s)

/-- One step of the machine: an idle engine waits and the host moves; a busy engine leaves the host the turns it still
has, then completes (20_memory.md R70; log 2). -/
def turn (s : State) : Host.Outcome State Fault Refusal :=
  match s.phase with
  | .idle => hostTurn s
  | .busy pending 0 => completeCommand pending s
  | .busy pending (left + 1) => hostTurn { s with phase := .busy pending left }

end Sys2Proof.Machine
end

