-- ==== Sys2Proof/Machine/Step.lean ====
section
/-! DEFINITION. One step of the machine, and the state whose next step runs a given command. -/

namespace Sys2Proof.Machine

/-- One step (`turn`, Machine/Engine.lean). -/
def step (s : State) : Host.Outcome State Fault Refusal := turn s

/-- The block right after it has accepted the command byte `w` (10_state.md R37), with the completion step due at once:
the very next step runs that command. It stands for the host's write to CMD (log 7). -/
def State.withFetchWord (s : State) (nbits w : Nat) : State := beginCommand (BitVec.ofNat 8 (w % 2 ^ nbits)) 0 s

end Sys2Proof.Machine
end

