-- ==== Sys2Proof/Machine/Script.lean ====
section
/-! DEFINITION. Host scripts: their transactions and pseudo-instructions, and the actions they expand to
(30_encoding.md R96-R98). -/

namespace Sys2Proof.Machine

/-- A line of a host script: the four forms of 30_encoding.md R96 and the six pseudo-instructions of R98. -/
inductive ScriptLine where
  /-- `W a, v`. -/
  | W (a : Addr) (v : Byte)
  /-- `R a`. -/
  | R (a : Addr)
  /-- `R a -> v`: the read, where the script states that the rules give `v`. -/
  | RGives (a : Addr) (v : Byte)
  /-- `; text`. -/
  | comment (text : String)
  /-- `CMD m`, m a mnemonic with its operand (R97). -/
  | CMD (m : Mnemonic) (operand : Option Nat)
  /-- `WAIT`. -/
  | WAIT
  /-- `DO m`. -/
  | DO (m : Mnemonic) (operand : Option Nat)
  /-- `PUTPT b0 ... b15`. -/
  | PUTPT (b : Block)
  /-- `PUTKEY b0 ... b15`. -/
  | PUTKEY (b : Block)
  /-- `READM base`. -/
  | READM (base : Addr)
  deriving DecidableEq, Repr

/-- `CMD m`: `W 0x001, byte(m)`; refused where the assembler refuses (30_encoding.md R97, R98). -/
def expandCmd (m : Mnemonic) (operand : Option Nat) : Option (List Action) :=
  (assemble m operand).map fun c => [.write cmdAddr c]

/-- The 16 writes of a block to a port, in index order (30_encoding.md R98). -/
def expandPut (port : Addr) (b : Block) : List Action := b.toList.map fun v => .write port v

/-- The 16 reads `base+4r+c` for r, c in 0..3, in address order (30_encoding.md R98). DESIGN CHOICE (log 18): the sum is
taken in the 12 bits of an address, so that above base 0xFF0 the last reads wrap round to 0x000 on. -/
def expandReadm (base : Addr) : List Action :=
  (List.range 16).map fun off => .read (base + BitVec.ofNat 12 off)

/-- The actions of one line (30_encoding.md R96, R98), `none` where the assembler refuses it. -/
def expandLine : ScriptLine → Option (List Action)
  | .W a v => some [.write a v]
  | .R a => some [.read a]
  | .RGives a _ => some [.read a]
  | .comment _ => some []
  | .CMD m n => expandCmd m n
  | .WAIT => some [.wait]
  | .DO m n => (expandCmd m n).map (· ++ [.wait])
  | .PUTPT b => some (expandPut ptPortAddr b)
  | .PUTKEY b => some (expandPut keyPortAddr b)
  | .READM base => some (expandReadm base)

/-- The actions of a whole script, `none` if the assembler refuses a line. -/
def expandScript : List ScriptLine → Option (List Action)
  | [] => some []
  | line :: rest => (expandLine line).bind fun acts => (expandScript rest).map (acts ++ ·)

/-- What READM reports: the 16 bytes read in address order are a matrix in row-major order, flattened by `fromMatrix`
(30_encoding.md R98; 20_memory.md R64). -/
def readmReport (window : Block) : Block :=
  fromMatrix (matrixOf fun r c => window.get ⟨4 * r.val + c.val, by omega⟩)

/-- A state with a program placed: the script is the host's, loaded from outside (log 6). -/
def State.withScript (s : State) (acts : List Action) : State := { s with script := acts }

end Sys2Proof.Machine
end

