-- ==== Sys2Proof/Safety.lean ====
section
/-! DEFINITION. The terms in which claims about the machine are written: the reset values, the invariant of the block,
what two states of the engine have in common, and a host that keeps to the busy protocol. -/

namespace Sys2Proof.Machine

/-- Every register but CMD at its reset value, and the engine IDLE (70_reset_and_hazards.md R240). -/
structure RegistersAtReset (s : State) : Prop where
  status : s.status = 0x00
  ekValid : s.ekValid = false
  simValid : s.simValid = false
  errBusy : s.errBusy = false
  lastErr : s.lastErr = 0
  ptLen : s.ptLen = 0
  keyLen : s.keyLen = 0
  gfA : s.gfA = 0x00
  gfB : s.gfB = 0x00
  gfRes : s.gfRes = 0x00
  traceCount : s.traceCount = 0
  pt : ∀ i, s.pt.get i = 0x00
  key : ∀ i, s.key.get i = 0x00
  stateMatrix : ∀ r c, entry s.stateMatrix r c = 0x00
  phase : s.phase = .idle

/-- The invariant of the block: LAST_ERR is a known code (10_state.md R24), TRACE_COUNT follows SIM_VALID (R29), the
two marks of validity say what they mean (R39, R40), and what is pending is the command in CMD (R25, R37), which has
already dropped the Simulation if it is RUN or CLEAR. It holds while busy too. -/
structure State.Inv (s : State) : Prop where
  knownCode : s.lastErr ≤ 3
  traceCount : s.traceCount = if s.simValid then 42 else 0
  ekValid : s.ekValid = true → 16 ≤ s.keyLen.toNat ∧ s.ek = expandKey s.key
  simValid : s.simValid = true → 16 ≤ s.ptLen.toNat ∧ 16 ≤ s.keyLen.toNat ∧
    s.ek = expandKey s.key ∧ s.trace = (generateSimulation s.pt s.key).trace
  pending : ∀ p left, s.phase = .busy p left →
    p = legalCommand s.cmd ∧ (invalidatesSimulation p = true → s.simValid = false)

/-- Two states that agree on every register, buffer and RAM of the block but ERR_BUSY and the phase; the host's side
may differ. -/
structure SameEngine (s t : State) : Prop where
  cmd : t.cmd = s.cmd
  ekValid : t.ekValid = s.ekValid
  simValid : t.simValid = s.simValid
  lastErr : t.lastErr = s.lastErr
  ptLen : t.ptLen = s.ptLen
  keyLen : t.keyLen = s.keyLen
  gfA : t.gfA = s.gfA
  gfB : t.gfB = s.gfB
  gfRes : t.gfRes = s.gfRes
  traceCount : t.traceCount = s.traceCount
  pt : t.pt = s.pt
  key : t.key = s.key
  stateMatrix : t.stateMatrix = s.stateMatrix
  ek : t.ek = s.ek
  trace : t.trace = s.trace

/-- The host's side of the model is the same: script, reads and draws. -/
def SameHostSide (s t : State) : Prop := t.script = s.script ∧ t.reads = s.reads ∧ t.draws = s.draws

/-- The script is at its end or goes on with WAIT. -/
def waitsNext : List Action → Bool
  | [] => true
  | .wait :: _ => true
  | .write _ _ :: _ => false
  | .read _ :: _ => false
  | .reset :: _ => false

/-- A script that follows 70_reset_and_hazards.md R244 item 4: after each write to CMD comes a WAIT. -/
def disciplined : List Action → Bool
  | [] => true
  | .write a _ :: rest => (decide (a ≠ cmdAddr) || waitsNext rest) && disciplined rest
  | .read _ :: rest => disciplined rest
  | .wait :: rest => disciplined rest
  | .reset :: rest => disciplined rest

/-- The host keeps to the busy protocol in what is left of its script, and has kept to it so far. -/
structure State.KeepsProtocol (s : State) : Prop where
  script : disciplined s.script = true
  errBusy : s.errBusy = false
  waiting : s.isBusy = true → waitsNext s.script = true

/-- The host addresses whose byte the completion of a command may change, beside STATUS at 0x000 (the "Operands" lines
of 40_primitives.md R115, 41_key_schedule.md R131, 42_transforms.md R144-R148, 43_sequencer.md R170 and 44_control.md
R200, R201, at the addresses of 20_memory.md R61). -/
def writtenBy : Instr → Nat → Prop
  | .nop, _ => False
  | .clear, a => (0x004 ≤ a ∧ a ≤ 0x008) ∨ (0x010 ≤ a ∧ a ≤ 0x03F)
  | .load, a => 0x030 ≤ a ∧ a ≤ 0x03F
  | .expand, a => 0x300 ≤ a ∧ a ≤ 0x3AF
  | .subb, a => 0x030 ≤ a ∧ a ≤ 0x03F
  | .shfr, a => 0x030 ≤ a ∧ a ≤ 0x03F
  | .mixc, a => 0x030 ≤ a ∧ a ≤ 0x03F
  | .ark _, a => 0x030 ≤ a ∧ a ≤ 0x03F
  | .gmul, a => a = 0x008
  | .run, a => a = 0x009 ∨ (0x030 ≤ a ∧ a ≤ 0x03F) ∨ (0x300 ≤ a ∧ a ≤ 0x3AF) ∨ (0x400 ≤ a ∧ a ≤ 0xE7F)

/-- An address within the trace window whose offset in its entry is reserved (20_memory.md R63); entries start at
multiples of 64. -/
def reservedTraceAddress (a : Nat) : Prop :=
  0x400 ≤ a ∧ a ≤ 0xE7F ∧ ((0x04 ≤ a % 64 ∧ a % 64 ≤ 0x0F) ∨ 0x30 ≤ a % 64)

/-- A reserved address (20_memory.md R67): a reserved row of the address map (R61), or a reserved offset inside a trace
entry (R63). -/
def reservedAddress (a : Nat) : Prop :=
  reservedTraceAddress a ∨ (0x00A ≤ a ∧ a ≤ 0x00F) ∨ (0x040 ≤ a ∧ a ≤ 0x0FF) ∨ (0x20B ≤ a ∧ a ≤ 0x2FF) ∨ (0x3B0 ≤ a ∧ a ≤ 0x3FF) ∨ 0xE80 ≤ a

/-- An address whose reads are draws while busy: the first list of 70_reset_and_hazards.md R245, less the reserved
addresses, which its second list names (log 11). -/
def drawnAddress (a : Nat) : Prop :=
  (0x010 ≤ a ∧ a ≤ 0x02F) ∨ (0x004 ≤ a ∧ a ≤ 0x008) ∨ (0x030 ≤ a ∧ a ≤ 0x03F) ∨ (0x300 ≤ a ∧ a ≤ 0x3AF) ∨
    (0x400 ≤ a ∧ a ≤ 0xE7F ∧ ¬ reservedTraceAddress a)

/-- READM at `base`, run from `s`, gives the matrix `m`: its sixteen reads take sixteen steps, record the bytes at
`base` on in address order, change nothing else, and are reported as `fromMatrix` of `m` (30_encoding.md R98). -/
def ReadmGives (s : State) (base : Addr) (m : StateMatrix) : Prop :=
  ∃ window : Block,
    Host.Core.run Sys2Proof.core 16 (s.withScript (expandReadm base)) = .next { s with
      script := []
      reads := (List.ofFn fun i : Fin 16 => (base + BitVec.ofNat 12 i.val, window.get i)).reverse ++ s.reads } ∧
    (∀ i : Fin 16, window.get i = s.peek (base + BitVec.ofNat 12 i.val)) ∧
    readmReport window = fromMatrix m

/-- The word `EK[4j .. 4j+3]` of an expanded key (41_key_schedule.md R133). -/
def ekWord (ek : ExpandedKey) (j : Fin 44) : KeyWord :=
  ⟨ek.get ⟨4 * j.val, by omega⟩, ek.get ⟨4 * j.val + 1, by omega⟩, ek.get ⟨4 * j.val + 2, by omega⟩,
    ek.get ⟨4 * j.val + 3, by omega⟩⟩

/-- The round of trace entry `k`, by the closed form of 43_sequencer.md R171. -/
def roundOfEntry (k : Nat) : Nat := if k < 2 then 0 else if k < 38 then (k + 2) / 4 else 10

/-- The kind code of trace entry `k`, by the closed form of 43_sequencer.md R171. -/
def kindOfEntry (k : Nat) : Byte :=
  if k = 0 then 0
  else if k = 1 then 4
  else if k < 38 then (if (k + 2) % 4 = 0 then 1 else if (k + 2) % 4 = 1 then 2 else if (k + 2) % 4 = 2 then 3 else 4)
  else if k = 38 then 1
  else if k = 39 then 2
  else if k = 40 then 4
  else 5

/-- The matrix after a step of kind code `kind`, from the matrix `m` before it and the entry's own K field `k`
(43_sequencer.md R170, R172; the codes of 10_state.md R34). -/
def matrixAfterKind (kind : Byte) (k m : StateMatrix) : StateMatrix :=
  if kind = 1 then subBytes m
  else if kind = 2 then shiftRows m
  else if kind = 3 then mixColumns m
  else if kind = 4 then addRoundKey m k
  else m

/-- The outcome code of a command (60_exceptions.md R210): ERR_LEN, ERR_CMD and ERR_SEQ under their conditions, else 0. -/
def outcomeCode (i : Instr) (s : State) : BitVec 3 :=
  match i with
  | .load => if s.ptLen = 16 then 0 else 1
  | .expand => if s.keyLen = 16 then 0 else 1
  | .run => if s.ptLen = 16 ∧ s.keyLen = 16 then 0 else 1
  | .ark n => if n.toNat ≤ 10 then (if s.ekValid then 0 else 3) else 2
  | .nop => 0
  | .clear => 0
  | .subb => 0
  | .shfr => 0
  | .mixc => 0
  | .gmul => 0

end Sys2Proof.Machine
end

