-- ==== Sys2Proof/Certificates/Slice0/Obligations.lean ====
section
/-! DEFINITION. The statements for the provers, one for each entry of OBLIGATIONS.json. -/

open Sys2Proof Sys2Proof.Machine

/-! ### Reset and the address map -/

/-- R240: the reset line puts every register at its reset value from any state, and State.reset is such a state. -/
def Obligations.ResetPutsEveryRegisterAtItsValue : Prop :=
  (RegistersAtReset State.reset ∧ State.reset.cmd = 0x00) ∧
  ∀ (rest : List Action) (s : State), ∃ t, performAction .reset rest s = .next t ∧ RegistersAtReset t ∧ t.cmd = 0x00

/-- R241: after a reset, at any time, the two RAMs hold fresh draws, and nothing is pending. That a draw is numbered by
`draws` is the model's choice (log 4, log 5). -/
def Obligations.ResetDrawsBothRamsAfresh : Prop :=
  ∀ (rest : List Action) (s : State), ∃ t, performAction .reset rest s = .next t ∧ t.phase = .idle ∧
    t.draws = s.draws + 1 ∧ (∀ i, t.ek.get i = Config.ekInit s.draws i) ∧
    ∀ (k : Fin 42) (off : BitVec 6), (off.toNat < 0x04 ∨ (0x10 ≤ off.toNat ∧ off.toNat < 0x30)) →
      traceEntryByte (t.trace.get k) off = Config.traceInit s.draws k off

/-- R36: in every state, busy or not, a read at 0x100 + v gives SBOX[v], a read at 0x200 + i gives RCON[i], and nothing
changes. -/
def Obligations.RomReadsGiveTheTables : Prop :=
  ∀ s : State, (∀ v : Byte, hostRead (0x100 + v.setWidth 12) s = .ok (sbox v, s)) ∧
    ∀ i : Fin 11, hostRead (0x200 + BitVec.ofNat 12 i.val) s = .ok (rcon i, s)

/-- R61: the registers, the input buffers, STATE and EK read at their addresses while idle. -/
def Obligations.RegistersAndBuffersReadAtTheirAddresses : Prop :=
  ∀ s : State, s.isBusy = false → s.lastErr ≤ 3 →
    hostRead 0x000 s = .ok (s.status, s) ∧ hostRead 0x001 s = .ok (s.cmd, s) ∧
    hostRead 0x002 s = .ok (0x00, s) ∧ hostRead 0x003 s = .ok (0x00, s) ∧
    hostRead 0x004 s = .ok (s.ptLen, s) ∧ hostRead 0x005 s = .ok (s.keyLen, s) ∧
    hostRead 0x006 s = .ok (s.gfA, s) ∧ hostRead 0x007 s = .ok (s.gfB, s) ∧
    hostRead 0x008 s = .ok (s.gfRes, s) ∧ hostRead 0x009 s = .ok (s.traceCount, s) ∧
    (∀ i : Fin 16, hostRead (BitVec.ofNat 12 (0x010 + i.val)) s = .ok (s.pt.get i, s)) ∧
    (∀ i : Fin 16, hostRead (BitVec.ofNat 12 (0x020 + i.val)) s = .ok (s.key.get i, s)) ∧
    (∀ r c : Fin 4, hostRead (BitVec.ofNat 12 (0x030 + 4 * r.val + c.val)) s = .ok (entry s.stateMatrix r c, s)) ∧
    ∀ i : Fin 176, hostRead (BitVec.ofNat 12 (0x300 + i.val)) s = .ok (s.ek.get i, s)

/-- R63: the 64 bytes of a trace entry, read while idle. -/
def Obligations.TraceWindowReadsItsEntry : Prop :=
  ∀ (s : State) (k : Fin 42), s.isBusy = false →
    let base := 0x400 + 64 * k.val
    let e := s.trace.get k
    hostRead (BitVec.ofNat 12 base) s = .ok (e.stepIndex, s) ∧
    hostRead (BitVec.ofNat 12 (base + 0x01)) s = .ok (e.round, s) ∧
    hostRead (BitVec.ofNat 12 (base + 0x02)) s = .ok (e.kind, s) ∧
    hostRead (BitVec.ofNat 12 (base + 0x03)) s = .ok (e.flags, s) ∧
    (∀ off, 0x04 ≤ off → off ≤ 0x0F → hostRead (BitVec.ofNat 12 (base + off)) s = .ok (0x00, s)) ∧
    (∀ r c : Fin 4, hostRead (BitVec.ofNat 12 (base + 0x10 + 4 * r.val + c.val)) s = .ok (entry e.s r c, s)) ∧
    (∀ r c : Fin 4, hostRead (BitVec.ofNat 12 (base + 0x20 + 4 * r.val + c.val)) s = .ok (entry e.k r c, s)) ∧
    ∀ off, 0x30 ≤ off → off ≤ 0x3F → hostRead (BitVec.ofNat 12 (base + off)) s = .ok (0x00, s)

/-- R23: the fields of the STATUS byte, and bit 7 reading 0. -/
def Obligations.StatusByteHoldsItsFields : Prop :=
  ∀ s : State, s.status.getLsbD 0 = s.isBusy ∧ s.status.getLsbD 1 = s.ekValid ∧ s.status.getLsbD 2 = s.simValid ∧
    s.status.getLsbD 3 = s.errBusy ∧ s.status.extractLsb' 4 3 = s.lastErr ∧ s.status.getLsbD 7 = false

/-- R67, R245: a reserved address, among them the reserved offsets inside a trace entry, reads 0x00 in every state, busy
or not, and nothing changes; STATUS bit 7 reads 0. That the trace offsets do so while busy too is DEDUCED (log 11). -/
def Obligations.ReservedAddressReadsZero : Prop :=
  ∀ s : State, (∀ a : Addr, reservedAddress a.toNat → hostRead a s = .ok (0x00, s)) ∧ s.status.getLsbD 7 = false

/-- R245, R98: while busy, a read in the first list returns a fresh draw, and a read of anything else returns its defined
value and changes nothing; a step whose host action is a read records that byte in `reads`, and one whose action is WAIT
records STATUS, whose bit 0 is then 1, and stays. The model's choices: that a draw is `Config.busyRead` of the draw
counter, which each such read advances (log 3, log 5), that the step uses up one turn (log 2), and that WAIT is one
action (log 16); that the reserved offsets of a trace entry are not drawn is DEDUCED (log 11). -/
def Obligations.BusyReadsFollowTheTwoLists : Prop :=
  ∀ (s : State) (a : Addr), s.isBusy = true →
    (drawnAddress a.toNat →
      hostRead a s = .ok (Config.busyRead s.draws, { s with draws := s.draws + 1 })) ∧
    (¬ drawnAddress a.toNat → s.lastErr ≤ 3 → hostRead a s = .ok (s.peek a, s)) ∧
    (s.lastErr ≤ 3 → hostRead 0x000 s = .ok (s.status, s)) ∧ hostRead 0x001 s = .ok (s.cmd, s) ∧
    hostRead 0x009 s = .ok (s.traceCount, s) ∧ hostRead 0x002 s = .ok (0x00, s) ∧ hostRead 0x003 s = .ok (0x00, s) ∧
    ∀ (p : Option Instr) (left : Nat) (rest : List Action), s.phase = .busy p (left + 1) →
      (s.script = .read a :: rest → drawnAddress a.toNat → step s = .next { s with
        phase := .busy p left, script := rest, reads := (a, Config.busyRead s.draws) :: s.reads
        draws := s.draws + 1 }) ∧
      (s.script = .read a :: rest → ¬ drawnAddress a.toNat → s.lastErr ≤ 3 → step s = .next { s with
        phase := .busy p left, script := rest, reads := (a, s.peek a) :: s.reads }) ∧
      (s.script = .wait :: rest → s.lastErr ≤ 3 → s.status.getLsbD 0 = true ∧ step s = .next { s with
        phase := .busy p left, script := .wait :: rest, reads := (0x000, s.status) :: s.reads })

/-- R66: a write elsewhere changes nothing while idle, any write while busy changes ERR_BUSY only, and no write raises
an error code. -/
def Obligations.WritesElsewhereAreIgnored : Prop :=
  ∀ (s : State) (a : Addr) (v : Byte),
    (s.isBusy = false → a ∉ [0x001, 0x002, 0x003, 0x006, 0x007] → hostWrite a v s = s) ∧
    (s.isBusy = true → hostWrite a v s = { s with errBusy := true }) ∧
    (hostWrite a v s).lastErr = s.lastErr

/-- R246: while busy, every host write to any address is dropped, and its only effect is ERR_BUSY <- 1. -/
def Obligations.BusyWriteIsDropped : Prop :=
  ∀ (s : State) (a : Addr) (v : Byte) (p : Option Instr) (left : Nat), s.phase = .busy p left →
    hostWrite a v s = { s with errBusy := true }

/-- R203: writes of GF_A and GF_B are stored at once while idle, leave everything else alone, and are dropped while
busy. -/
def Obligations.OperandWritesAreStored : Prop :=
  ∀ (s : State) (v : Byte),
    (s.isBusy = false → hostWrite 0x006 v s = { s with gfA := v } ∧ hostWrite 0x007 v s = { s with gfB := v }) ∧
    (s.isBusy = true →
      hostWrite 0x006 v s = { s with errBusy := true } ∧ hostWrite 0x007 v s = { s with errBusy := true })

/-- R202: a port write while idle stores the byte at the index its counter gives, if that is below 16, and counts it,
saturating at 255; nothing else changes. -/
def Obligations.PortWritesAppendAndCount : Prop :=
  ∀ (s : State) (v : Byte), s.isBusy = false →
    (∃ b n, hostWrite 0x002 v s = { s with pt := b, ptLen := n } ∧ n.toNat = min (s.ptLen.toNat + 1) 255 ∧
      ∀ i : Fin 16, b.get i = if i.val = s.ptLen.toNat then v else s.pt.get i) ∧
    (∃ b n, hostWrite 0x003 v s = { s with key := b, keyLen := n } ∧ n.toNat = min (s.keyLen.toNat + 1) 255 ∧
      ∀ i : Fin 16, b.get i = if i.val = s.keyLen.toNat then v else s.key.get i)

/-! ### Command bytes and scripts -/

/-- R92, R95: decoding the byte of a well-formed command gives the command back, with the bytes after it, and a byte
that decodes is the byte of the command it decodes to. -/
def Obligations.DecodeAndEncodeAgree : Prop :=
  (∀ (i : Instr) (rest : List Byte), i.wf = true → decode (encode i ++ rest) = .ok (i, rest)) ∧
  ∀ (c : Byte) (i : Instr), decodeByte c = .ok i → i.wf = true ∧ encodeByte i = c

/-- R92: the command bytes of the opcode map, written out bit by bit. -/
def Obligations.CommandBytesOfTheMapDecode : Prop :=
  decodeByte 0b00000000 = .ok .nop ∧ decodeByte 0b00010000 = .ok .clear ∧ decodeByte 0b00110000 = .ok .expand ∧
  decodeByte 0b01100000 = .ok .mixc ∧ decodeByte 0b01111010 = .ok (.ark 10) ∧ decodeByte 0b10000000 = .ok .gmul ∧
  decodeByte 0b10010000 = .ok .run

/-- R94: the illegal bytes are its three items, and an accepted illegal byte is stored in CMD, completes with
LAST_ERR = 2 and has no other effect; SIM_VALID and TRACE_COUNT keep their values. -/
def Obligations.IllegalBytesRecordErrCmdOnly : Prop :=
  (∀ c : Byte, legalCommand c = none ↔
    (10 ≤ c.toNat / 16) ∨ (c.toNat % 16 ≠ 0 ∧ c.toNat / 16 ≤ 9 ∧ c.toNat / 16 ≠ 7) ∨
      (c.toNat / 16 = 7 ∧ 11 ≤ c.toNat % 16)) ∧
  ∀ (c : Byte) (left : Nat) (s : State), legalCommand c = none →
    beginCommand c left s = { s with cmd := c, phase := .busy none left } ∧
    step (beginCommand c 0 s) = .next { s with cmd := c, lastErr := 2, phase := .idle }

/-- R97: each mnemonic assembles to its command byte, ARK n to 0x70 + n, and the assembler refuses ARK with n > 10 and
any operand on another mnemonic. -/
def Obligations.AssemblerFollowsTheMnemonics : Prop :=
  assemble .NOP none = some 0x00 ∧ assemble .CLEAR none = some 0x10 ∧ assemble .LOAD none = some 0x20 ∧
  assemble .EXPAND none = some 0x30 ∧ assemble .SUBB none = some 0x40 ∧ assemble .SHFR none = some 0x50 ∧
  assemble .MIXC none = some 0x60 ∧ assemble .GMUL none = some 0x80 ∧ assemble .RUN none = some 0x90 ∧
  (∀ n, n ≤ 10 → assemble .ARK (some n) = some (BitVec.ofNat 8 (0x70 + n))) ∧
  (∀ n, 10 < n → assemble .ARK (some n) = none) ∧
  ∀ m n, m ≠ .ARK → assemble m (some n) = none

/-- R98, R64: from an idle block, the sixteen reads of READM at 0x030, and at the S and K windows of a trace entry, record
the bytes of the window in address order, change nothing else, and are reported as `fromMatrix` of the matrix held there;
in every state the bytes at those addresses are that matrix, row-major. -/
def Obligations.ReadmReportsTheFlatMatrix : Prop :=
  ∀ (s : State) (k : Fin 42),
    (s.phase = .idle →
      ReadmGives s 0x030 s.stateMatrix ∧
      ReadmGives s (BitVec.ofNat 12 (0x410 + 64 * k.val)) (s.trace.get k).s ∧
      ReadmGives s (BitVec.ofNat 12 (0x420 + 64 * k.val)) (s.trace.get k).k) ∧
    readmReport (Vector.ofFn fun i => s.peek (BitVec.ofNat 12 (0x030 + i.val))) = fromMatrix s.stateMatrix ∧
    readmReport (Vector.ofFn fun i => s.peek (BitVec.ofNat 12 (0x410 + 64 * k.val + i.val))) =
      fromMatrix (s.trace.get k).s ∧
    readmReport (Vector.ofFn fun i => s.peek (BitVec.ofNat 12 (0x420 + 64 * k.val + i.val))) =
      fromMatrix (s.trace.get k).k

/-- R96, R98: what each line of a host script expands to, and a script to the expansions of its lines in order; CMD and DO
are refused exactly where the assembler refuses. That WAIT is one action is log 16, and that READM's addresses are sums
in 12 bits is log 18. -/
def Obligations.ScriptLinesExpandToTheirActions : Prop :=
  (∀ (a : Addr) (v : Byte), expandLine (.W a v) = some [.write a v] ∧ expandLine (.R a) = some [.read a] ∧
    expandLine (.RGives a v) = some [.read a]) ∧
  (∀ text, expandLine (.comment text) = some []) ∧ expandLine .WAIT = some [.wait] ∧
  (∀ (m : Mnemonic) (n : Option Nat) (c : Byte), assemble m n = some c →
    expandLine (.CMD m n) = some [.write 0x001 c] ∧ expandLine (.DO m n) = some [.write 0x001 c, .wait]) ∧
  (∀ (m : Mnemonic) (n : Option Nat), assemble m n = none →
    expandLine (.CMD m n) = none ∧ expandLine (.DO m n) = none) ∧
  (∀ b : Block,
    expandLine (.PUTPT b) = some (List.ofFn fun i : Fin 16 => .write 0x002 (b.get i)) ∧
    expandLine (.PUTKEY b) = some (List.ofFn fun i : Fin 16 => .write 0x003 (b.get i))) ∧
  (∀ base : Addr, ∃ acts, expandLine (.READM base) = some acts ∧ acts.length = 16 ∧
    ∀ r c : Fin 4, acts[4 * r.val + c.val]? = some (.read (base + BitVec.ofNat 12 (4 * r.val + c.val)))) ∧
  expandScript [] = some [] ∧
  ∀ (line : ScriptLine) (rest : List ScriptLine) (acts : List Action),
    expandScript (line :: rest) = some acts ↔
      ∃ first more, expandLine line = some first ∧ expandScript rest = some more ∧ acts = first ++ more

/-- R98, R202: from an idle block with PT_LEN = 0 the sixteen writes of PUTPT make PT the block and PT_LEN 16, and
leave the rest of the block alone; PUTKEY does the same for KEY. -/
def Obligations.PutPseudoInstructionsFillTheBuffers : Prop :=
  ∀ (s : State) (b : Block), s.phase = .idle →
    (s.ptLen = 0 → Host.Core.run Sys2Proof.core 16 (s.withScript (expandPut ptPortAddr b)) =
      .next { s with pt := b, ptLen := 16, script := [] }) ∧
    (s.keyLen = 0 → Host.Core.run Sys2Proof.core 16 (s.withScript (expandPut keyPortAddr b)) =
      .next { s with key := b, keyLen := 16, script := [] })

/-! ### The step -/

/-- R37 and the model's own step (log 2, log 7): a command byte that decodes to `i` makes the next step `exec i`; an
idle engine leaves the turn to the host, and a busy engine does so while turns are left, then completes. -/
def Obligations.StepRunsTheDecodedCommand : Prop :=
  (∀ (s : State) (c : Byte) (i : Instr), decodeByte c = .ok i →
    s.withFetchWord 8 c.toNat = beginCommand c 0 s ∧
    step (s.withFetchWord 8 c.toNat) = exec i (beginCommand c 0 s)) ∧
  (∀ (s : State) (i : Instr), s.phase = .busy (some i) 0 → step s = exec i s) ∧
  (∀ s : State, s.phase = .busy none 0 → step s = .next { s with lastErr := 2, phase := .idle }) ∧
  (∀ (s : State) (p : Option Instr) (left : Nat), s.phase = .busy p (left + 1) →
    step s = hostTurn { s with phase := .busy p left }) ∧
  ∀ s : State, s.phase = .idle → step s = hostTurn s

/-- R25, R37: a write to CMD while idle stores the byte, makes the engine busy with what the byte encodes, and, for
0x90 and 0x10 only, clears SIM_VALID and TRACE_COUNT, and for 0x10 only ERR_BUSY. The number of turns left is
`LAT` less 1 (log 2). -/
def Obligations.WriteToCmdIsAccepted : Prop :=
  ∀ (s : State) (c : Byte) (rest : List Action), s.phase = .idle → s.script = .write 0x001 c :: rest →
    ∃ left, Config.latency c s.draws = left + 1 ∧
    step s = .next { s with
      cmd := c
      simValid := if c = 0x90 ∨ c = 0x10 then false else s.simValid
      traceCount := if c = 0x90 ∨ c = 0x10 then 0 else s.traceCount
      errBusy := if c = 0x10 then false else s.errBusy
      phase := .busy (legalCommand c) left
      script := rest
      draws := s.draws + 1 }

/-- R226, R62, R98: an idle engine whose host reads, waits or does nothing keeps every register, buffer and RAM, and stays
idle; the step records the byte read in `reads`, and WAIT, which reads bit 0 of STATUS as 0, is done. That WAIT is one
action is the model's choice (log 16). -/
def Obligations.IdleEngineKeepsItsState : Prop :=
  ∀ s : State, s.phase = .idle → s.lastErr ≤ 3 →
    (s.script = [] ∨ (∃ a rest, s.script = .read a :: rest) ∨ ∃ rest, s.script = .wait :: rest) →
    (∃ t, step s = .next t ∧ SameEngine s t ∧ t.errBusy = s.errBusy ∧ t.phase = .idle) ∧
    (s.script = [] → step s = .next s) ∧
    (∀ a rest, s.script = .read a :: rest →
      step s = .next { s with script := rest, reads := (a, s.peek a) :: s.reads }) ∧
    ∀ rest, s.script = .wait :: rest → s.status.getLsbD 0 = false ∧
      step s = .next { s with script := rest, reads := (0x000, s.status) :: s.reads }

/-! ### The commands -/

/-- R200: NOP sets LAST_ERR to 0 and completes; nothing else changes, ERR_BUSY among the rest. -/
def Obligations.NopSetsLastErrToZero : Prop :=
  ∀ s : State, exec .nop s = .next { s with lastErr := 0, phase := .idle }

/-- R201: from its acceptance, CLEAR leaves every register at its reset value but CMD, which holds 0x10, and keeps EK and
the trace; from any state its completion leaves ERR_BUSY alone. -/
def Obligations.ClearReturnsTheRegistersToReset : Prop :=
  (∀ (s : State) (left : Nat), ∃ t, exec .clear (beginCommand 0x10 left s) = .next t ∧ RegistersAtReset t ∧
    t.cmd = 0x10 ∧ t.ek = s.ek ∧ t.trace = s.trace ∧ SameHostSide s t) ∧
  ∀ s : State, ∃ t, exec .clear s = .next t ∧ t.errBusy = s.errBusy ∧ t.cmd = s.cmd ∧ t.ek = s.ek ∧
    t.trace = s.trace ∧ t.simValid = s.simValid ∧ t.traceCount = s.traceCount ∧ t.ekValid = false ∧ t.lastErr = 0 ∧
    t.phase = .idle ∧ SameHostSide s t

/-- R144: LOAD with PT_LEN = 16 puts PT[r + 4c] at STATE[r][c] and changes nothing else but LAST_ERR and BUSY; with any
other PT_LEN it records ERR_LEN only. -/
def Obligations.LoadConvertsThePlaintext : Prop :=
  ∀ s : State,
    (s.ptLen = 16 → ∃ m, exec .load s = .next { s with stateMatrix := m, lastErr := 0, phase := .idle } ∧
      ∀ r c : Fin 4, entry m r c = s.pt.get ⟨r.val + 4 * c.val, by omega⟩) ∧
    (s.ptLen ≠ 16 → exec .load s = .next { s with lastErr := 1, phase := .idle })

/-- R131: EXPAND with KEY_LEN = 16 writes the expanded key and EK_VALID; with any other KEY_LEN it records ERR_LEN
only. -/
def Obligations.ExpandWritesTheExpandedKey : Prop :=
  ∀ s : State,
    (s.keyLen = 16 →
      exec .expand s = .next { s with ek := expandKey s.key, ekValid := true, lastErr := 0, phase := .idle }) ∧
    (s.keyLen ≠ 16 → exec .expand s = .next { s with lastErr := 1, phase := .idle })

/-- R140, R145: SUBB replaces every byte of STATE with its S-box substitute and changes nothing else but LAST_ERR and
BUSY. -/
def Obligations.SubbSubstitutesEveryByte : Prop :=
  ∀ s : State, ∃ m, exec .subb s = .next { s with stateMatrix := m, lastErr := 0, phase := .idle } ∧
    ∀ r c : Fin 4, entry m r c = sbox (entry s.stateMatrix r c)

/-- R141, R146: SHFR rotates row r of STATE left by r columns and changes nothing else but LAST_ERR and BUSY. -/
def Obligations.ShfrRotatesEachRow : Prop :=
  ∀ s : State, ∃ m, exec .shfr s = .next { s with stateMatrix := m, lastErr := 0, phase := .idle } ∧
    ∀ r c : Fin 4, entry m r c = entry s.stateMatrix r ⟨(c.val + r.val) % 4, by omega⟩

/-- R142, R147: MIXC multiplies each column of the old STATE by the fixed matrix and changes nothing else but LAST_ERR
and BUSY. -/
def Obligations.MixcMultipliesEachColumn : Prop :=
  ∀ s : State, ∃ m, exec .mixc s = .next { s with stateMatrix := m, lastErr := 0, phase := .idle } ∧
    ∀ c : Fin 4,
      let s0 := entry s.stateMatrix 0 c
      let s1 := entry s.stateMatrix 1 c
      let s2 := entry s.stateMatrix 2 c
      let s3 := entry s.stateMatrix 3 c
      entry m 0 c = gmul 2 s0 ^^^ gmul 3 s1 ^^^ s2 ^^^ s3 ∧
      entry m 1 c = s0 ^^^ gmul 2 s1 ^^^ gmul 3 s2 ^^^ s3 ∧
      entry m 2 c = s0 ^^^ s1 ^^^ gmul 2 s2 ^^^ gmul 3 s3 ∧
      entry m 3 c = gmul 3 s0 ^^^ s1 ^^^ s2 ^^^ gmul 2 s3

/-- R148, R143, R11: ARK n with EK_VALID = 1 XORs EK[16n + r + 4c] into STATE[r][c]; with EK_VALID = 0 it records
ERR_SEQ only; a round number above 10, which no legal byte carries, records ERR_CMD only, before the other check. -/
def Obligations.ArkXorsTheRoundKey : Prop :=
  ∀ (s : State) (n : BitVec 4),
    (∀ h : n.toNat ≤ 10, s.ekValid = true →
      ∃ m, exec (.ark n) s = .next { s with stateMatrix := m, lastErr := 0, phase := .idle } ∧
        ∀ r c : Fin 4,
          entry m r c = entry s.stateMatrix r c ^^^ s.ek.get ⟨16 * n.toNat + r.val + 4 * c.val, by omega⟩) ∧
    (n.toNat ≤ 10 → s.ekValid = false → exec (.ark n) s = .next { s with lastErr := 3, phase := .idle }) ∧
    (10 < n.toNat → exec (.ark n) s = .next { s with lastErr := 2, phase := .idle })

/-- R115: GMUL writes gmul(GF_A, GF_B) to GF_RES and changes nothing else but LAST_ERR and BUSY. -/
def Obligations.GmulWritesTheProduct : Prop :=
  ∀ s : State, exec .gmul s = .next { s with gfRes := gmul s.gfA s.gfB, lastErr := 0, phase := .idle }

/-- R170: RUN with both lengths 16 writes EK, the trace, STATE, EK_VALID, SIM_VALID and TRACE_COUNT, all from PT and KEY,
and changes nothing else but LAST_ERR and BUSY; with another length it records ERR_LEN only. -/
def Obligations.RunStoresTheSimulation : Prop :=
  ∀ s : State,
    (s.ptLen = 16 ∧ s.keyLen = 16 → exec .run s = .next { s with
      ek := expandKey s.key
      ekValid := true
      trace := simulationTrace (expandKey s.key) (toMatrix s.pt)
      stateMatrix := ((simulationTrace (expandKey s.key) (toMatrix s.pt)).get 41).s
      traceCount := 42
      simValid := true
      lastErr := 0
      phase := .idle }) ∧
    (¬ (s.ptLen = 16 ∧ s.keyLen = 16) → exec .run s = .next { s with lastErr := 1, phase := .idle })

/-- R175: after a successful RUN, STATE equals TRACE[40].S, which is TRACE[41].S, EK is expand_key(KEY) and
EK_VALID = 1. -/
def Obligations.AfterRunStateIsTheLastSnapshot : Prop :=
  ∀ s : State, s.ptLen = 16 → s.keyLen = 16 → ∃ t, exec .run s = .next t ∧
    t.stateMatrix = (t.trace.get 40).s ∧ (t.trace.get 40).s = (t.trace.get 41).s ∧ t.ek = expandKey t.key ∧
    t.ekValid = true

/-- R176: the writes of RUN are a function of PT and KEY alone: two states that agree on them (and on both lengths) come
out with the same EK, trace, STATE, TRACE_COUNT, marks of validity and outcome. -/
def Obligations.RunDependsOnItsInputsAlone : Prop :=
  ∀ s s' : State, s'.pt = s.pt → s'.key = s.key → s.ptLen = 16 → s.keyLen = 16 → s'.ptLen = 16 → s'.keyLen = 16 →
    ∃ t t', exec .run s = .next t ∧ exec .run s' = .next t' ∧ t'.ek = t.ek ∧ t'.trace = t.trace ∧
      t'.stateMatrix = t.stateMatrix ∧ t'.traceCount = t.traceCount ∧ t'.ekValid = t.ekValid ∧
      t'.simValid = t.simValid ∧ t'.lastErr = t.lastErr

/-- R177: a RUN that fails the length check, from its acceptance on, writes nothing but LAST_ERR, and SIM_VALID and
TRACE_COUNT are 0 after it. -/
def Obligations.RejectedRunWritesOnlyItsCode : Prop :=
  ∀ (s : State) (left : Nat), (s.ptLen ≠ 16 ∨ s.keyLen ≠ 16) →
    exec .run (beginCommand 0x90 left s) =
      .next { s with cmd := 0x90, simValid := false, traceCount := 0, lastErr := 1, phase := .idle }

/-! ### What the commands compute -/

/-- R111: the properties of gmul. -/
def Obligations.GmulHasItsListedProperties : Prop :=
  (∀ a : Byte, gmul a 0x01 = a) ∧ (∀ b : Byte, gmul 0x00 b = 0x00) ∧ (∀ a b : Byte, gmul a b = gmul b a) ∧
  (∀ a : Byte, gmul a 0x00 = 0x00) ∧ (∀ b : Byte, gmul 0x01 b = b) ∧
  (∀ a : Byte, gmul 0x02 a = (a <<< 1) ^^^ (if a.getLsbD 7 then 0x1B else 0x00)) ∧
  ∀ a : Byte, gmul 0x03 a = gmul 0x02 a ^^^ a

/-- R110, R111: with XOR as addition, gmul makes the bytes a field: it is commutative and associative, has 0x01 as its
identity, distributes over XOR, and every non-zero byte has an inverse. -/
def Obligations.GmulMakesTheBytesAField : Prop :=
  (∀ a : Byte, gmul a 0x01 = a ∧ gmul 0x01 a = a) ∧ (∀ a b : Byte, gmul a b = gmul b a) ∧
  (∀ a b c : Byte, gmul (gmul a b) c = gmul a (gmul b c)) ∧
  (∀ a b c : Byte, gmul a (b ^^^ c) = gmul a b ^^^ gmul a c) ∧
  ∀ a : Byte, a ≠ 0 → ∃ b : Byte, gmul a b = 0x01

/-- R112: the S-box table is the affine map of the field inverse, at every byte. -/
def Obligations.SboxIsTheAffineMapOfTheInverse : Prop :=
  ∀ v y : Byte, ((v = 0 ∧ y = 0) ∨ gmul v y = 0x01) → ∀ i : Fin 8,
    (sbox v).getLsbD i.val = (y.getLsbD i.val ^^ y.getLsbD ((i.val + 4) % 8) ^^ y.getLsbD ((i.val + 5) % 8) ^^
      y.getLsbD ((i.val + 6) % 8) ^^ y.getLsbD ((i.val + 7) % 8) ^^ (0x63 : Byte).getLsbD i.val)

/-- R113: sub_byte is the S-box entry, which the host reads at 0x100 + v; its corner cases; and it has no fixed point.
The entries rest on general knowledge (log 9). -/
def Obligations.SubByteReadsTheTableWithoutFixedPoint : Prop :=
  (∀ (s : State) (v : Byte), hostRead (0x100 + v.setWidth 12) s = .ok (sbox v, s)) ∧
  sbox 0x00 = 0x63 ∧ sbox 0xFF = 0x16 ∧ sbox 0x52 = 0x00 ∧ ∀ v : Byte, sbox v ≠ v

/-- R132: the first 16 bytes of the expanded key are the key; at each boundary k = 1..10 the rotation, the substitution
and RCON[k] are applied once, and nowhere else. -/
def Obligations.ExpandedKeyAppliesEachBoundaryOnce : Prop :=
  ∀ key : Block,
    (∀ i : Fin 16, (expandKey key).get ⟨i.val, by omega⟩ = key.get i) ∧
    (∀ (k : Fin 11) (j : Fin 4), (hk : 1 ≤ k.val) →
      (expandKey key).get ⟨16 * k.val + j.val, by omega⟩ =
        (expandKey key).get ⟨16 * k.val - 16 + j.val, by omega⟩ ^^^
          (sbox ((expandKey key).get ⟨16 * k.val - 4 + (j.val + 1) % 4, by omega⟩) ^^^
            if j.val = 0 then rcon k else 0x00)) ∧
    ∀ i : Fin 176, (hi : 16 ≤ i.val) → 4 ≤ i.val % 16 →
      (expandKey key).get i =
        (expandKey key).get ⟨i.val - 16, by omega⟩ ^^^ (expandKey key).get ⟨i.val - 4, by omega⟩

/-- R133: the words of the expanded key obey the recurrence, and word 4n + c is column c of RK(n). -/
def Obligations.ExpandedKeyObeysTheWordRecurrence : Prop :=
  ∀ key : Block,
    (∀ j : Fin 4, ekWord (expandKey key) ⟨j.val, by omega⟩ =
      ⟨key.get ⟨4 * j.val, by omega⟩, key.get ⟨4 * j.val + 1, by omega⟩, key.get ⟨4 * j.val + 2, by omega⟩,
        key.get ⟨4 * j.val + 3, by omega⟩⟩) ∧
    (∀ j : Fin 44, (hj : 4 ≤ j.val) →
      let previous := ekWord (expandKey key) ⟨j.val - 1, by omega⟩
      ekWord (expandKey key) j = xorWord (ekWord (expandKey key) ⟨j.val - 4, by omega⟩)
        (if j.val % 4 = 0 then
          xorWord ⟨sbox previous.b1, sbox previous.b2, sbox previous.b3, sbox previous.b0⟩
            ⟨rcon ⟨j.val / 4, by omega⟩, 0, 0, 0⟩
        else previous)) ∧
    ∀ (n : Round) (r c : Fin 4),
      entry (roundKey (expandKey key) n) r c = wordByte (ekWord (expandKey key) ⟨4 * n.val + c.val, by omega⟩) r

/-- R130, R133: the byte loop of R130 and the word view of R133 give the same expanded key. -/
def Obligations.ByteLoopGivesTheExpandedKey : Prop :=
  ∀ key : Block, expandKeyByBytes key = expandKey key

/-- R10: the two conversions, and that each undoes the other. -/
def Obligations.MatrixConversionsUndoEachOther : Prop :=
  (∀ (b : Block) (r c : Fin 4), entry (toMatrix b) r c = b.get ⟨r.val + 4 * c.val, by omega⟩) ∧
  (∀ (m : StateMatrix) (i : Fin 16), (fromMatrix m).get i = entry m ⟨i.val % 4, by omega⟩ ⟨i.val / 4, by omega⟩) ∧
  (∀ b : Block, fromMatrix (toMatrix b) = b) ∧ ∀ m : StateMatrix, toMatrix (fromMatrix m) = m

/-- R146, R148, R147: four SHFR restore STATE, ARK n twice restores STATE, and MIXC leaves a column of four equal bytes
alone. -/
def Obligations.TransformsUndoThemselves : Prop :=
  (∀ m : StateMatrix, shiftRows (shiftRows (shiftRows (shiftRows m))) = m) ∧
  (∀ m k : StateMatrix, addRoundKey (addRoundKey m k) k = m) ∧
  ∀ (m : StateMatrix) (c : Fin 4) (v : Byte), (∀ r, entry m r c = v) → ∀ r, entry (mixColumns m) r c = v

/-- R171: step index, round, kind, HAS_RK flag and round key of each of the 42 entries, by the closed form; and where
the trace RAM holds them, the four header bytes are read from the entry's base address on. -/
def Obligations.TraceFollowsTheSchedule : Prop :=
  ∀ (pt key : Block) (k : Fin 42),
    (let e := (generateSimulation pt key).trace.get k
     e.stepIndex = BitVec.ofNat 8 k.val ∧ e.round = BitVec.ofNat 8 (roundOfEntry k.val) ∧ e.kind = kindOfEntry k.val ∧
     e.flags = (if kindOfEntry k.val = 4 then 1 else 0) ∧
     ∀ r c : Fin 4, entry e.k r c =
       if kindOfEntry k.val = 4 then (expandKey key).getD (16 * roundOfEntry k.val + r.val + 4 * c.val) 0x00
       else 0x00) ∧
    ∀ s : State, s.trace = (generateSimulation pt key).trace →
      s.peek (BitVec.ofNat 12 (0x400 + 64 * k.val)) = BitVec.ofNat 8 k.val ∧
      s.peek (BitVec.ofNat 12 (0x401 + 64 * k.val)) = BitVec.ofNat 8 (roundOfEntry k.val) ∧
      s.peek (BitVec.ofNat 12 (0x402 + 64 * k.val)) = kindOfEntry k.val ∧
      s.peek (BitVec.ofNat 12 (0x403 + 64 * k.val)) = if kindOfEntry k.val = 4 then 1 else 0

/-- R172: the INITIAL entry holds toMatrix(PT), and every later entry holds the matrix after the operation its KIND
names, applied to the matrix of the entry before it; ADD_ROUND_KEY uses the K field of its own entry. -/
def Obligations.EachTraceEntryFollowsFromTheOneBefore : Prop :=
  ∀ pt key : Block,
    let trace := (generateSimulation pt key).trace
    (trace.get 0).s = toMatrix pt ∧
    ∀ k : Fin 41, (trace.get k.succ).s =
      matrixAfterKind (trace.get k.succ).kind (trace.get k.succ).k (trace.get k.castSucc).s

/-- R174: MIX_COLUMNS appears 9 times and never in round 10, and ADD_ROUND_KEY 11 times. -/
def Obligations.TraceCountsItsKinds : Prop :=
  ∀ pt key : Block,
    let entries := (generateSimulation pt key).trace.toList
    entries.length = 42 ∧ (entries.filter fun e => e.kind = 3).length = 9 ∧
    (entries.filter fun e => e.kind = 4).length = 11 ∧ (entries.filter fun e => e.kind = 3 ∧ e.round = 10) = []

/-! ### Frames and errors -/

/-- R212: a command that records an error code writes that code and nothing else. -/
def Obligations.ErrorsArePrecise : Prop :=
  ∀ (p : Option Instr) (s t : State), completeCommand p s = .next t → t.lastErr ≠ 0 →
    t = { s with lastErr := t.lastErr, phase := .idle }

/-- R214: ARK n records ERR_SEQ when EK_VALID = 0, and no other command raises ERR_SEQ. -/
def Obligations.OnlyArkRaisesErrSeq : Prop :=
  (∀ (n : BitVec 4) (s : State), n.toNat ≤ 10 → s.ekValid = false →
    exec (.ark n) s = .next { s with lastErr := 3, phase := .idle }) ∧
  ∀ (p : Option Instr) (s t : State), completeCommand p s = .next t → t.lastErr = 3 →
    ∃ n : BitVec 4, p = some (.ark n) ∧ n.toNat ≤ 10 ∧ s.ekValid = false

/-- The frame of STATUS, CMD and the host's side for every command: ERR_BUSY, CMD, script, reads and draws never change,
BUSY is 0, LAST_ERR is the outcome code, and the two marks change only as the command's rule says. -/
def Obligations.CommandsWriteOnlyTheirStatusBits : Prop :=
  ∀ (i : Instr) (s : State), ∃ t, exec i s = .next t ∧
    t.errBusy = s.errBusy ∧ t.cmd = s.cmd ∧ SameHostSide s t ∧ t.phase = .idle ∧ t.lastErr = outcomeCode i s ∧
    (t.simValid = if i = .run ∧ s.ptLen = 16 ∧ s.keyLen = 16 then true else s.simValid) ∧
    (t.ekValid = if i = .clear then false
      else if (i = .expand ∧ s.keyLen = 16) ∨ (i = .run ∧ s.ptLen = 16 ∧ s.keyLen = 16) then true else s.ekValid)

/-- The frame of the host register space for every command: a byte outside the command's own addresses, and outside
STATUS, reads after it as before. -/
def Obligations.CommandsChangeOnlyTheirOwnBytes : Prop :=
  ∀ (i : Instr) (s t : State), exec i s = .next t →
    ∀ a : Addr, a ≠ 0x000 → ¬ writtenBy i a.toNat → t.peek a = s.peek a

/-- R178, R241: no command but RUN, no host write and no illegal byte changes a trace entry; and a step that changes one
is the completion step of a RUN that records no error, or a reset, which leaves the trace RAM unspecified. That a busy
engine with no turn left completes is the model's choice (log 2). -/
def Obligations.OnlyRunAndResetChangeTheTrace : Prop :=
  (∀ (p : Option Instr) (s t : State), p ≠ some .run → completeCommand p s = .next t → t.trace = s.trace) ∧
  (∀ (a : Addr) (v : Byte) (s : State), (hostWrite a v s).trace = s.trace) ∧
  ∀ s t : State, step s = .next t → t.trace ≠ s.trace →
    (s.phase = .busy (some .run) 0 ∧ t.lastErr = 0) ∨ ∃ rest, s.script = .reset :: rest

/-- R216: ERR_BUSY becomes 1 exactly on a host write while busy, with LAST_ERR unchanged, and is cleared only by a reset
and by the acceptance of CLEAR. That the write uses up one turn of the busy period is the model's choice (log 2). -/
def Obligations.ErrBusyIsSticky : Prop :=
  (∀ (s : State) (p : Option Instr) (left : Nat) (a : Addr) (v : Byte) (rest : List Action),
    s.phase = .busy p (left + 1) → s.script = .write a v :: rest →
    step s = .next { s with errBusy := true, script := rest, phase := .busy p left }) ∧
  (∀ s t : State, step s = .next t → s.errBusy = false → t.errBusy = true →
    s.isBusy = true ∧ (∃ a v rest, s.script = .write a v :: rest) ∧ t.lastErr = s.lastErr) ∧
  ∀ s t : State, step s = .next t → s.errBusy = true → t.errBusy = false →
    (∃ rest, s.script = .reset :: rest) ∨ (s.phase = .idle ∧ ∃ rest, s.script = .write 0x001 0x10 :: rest)

/-- R219, R220: LAST_ERR keeps its code until the next completion, or until a reset. -/
def Obligations.LastErrChangesOnlyAtCompletionOrReset : Prop :=
  ∀ s t : State, step s = .next t → t.lastErr ≠ s.lastErr →
    (∃ p, s.phase = .busy p 0) ∨ ∃ rest, s.script = .reset :: rest

/-! ### Whole-machine rules -/

/-- The invariant holds at reset. -/
def Obligations.InvariantHoldsAtReset : Prop := State.reset.Inv

/-- R24, R29, R39, R40: every step from a state with the invariant gives a state with the invariant. -/
def Obligations.StepKeepsTheInvariant : Prop :=
  ∀ s t : State, s.Inv → step s = .next t → t.Inv

/-- R251, R24: under the invariant a step never stops; without it, only a read of STATUS with a reserved code does. -/
def Obligations.StepStopsOnlyOnAReservedCode : Prop :=
  (∀ s : State, s.Inv → ∃ t, step s = .next t) ∧
  (∀ (s : State) (f : Fault), step s = .fault f → 3 < s.lastErr) ∧
  ∀ (s : State) (r : Refusal), step s ≠ .refused r

/-- R251: a busy engine is idle again after at most the turns left and one step, and after exactly that many steps if no
reset intervenes. The count in turns is the model's choice (log 2). -/
def Obligations.EveryAcceptedCommandCompletes : Prop :=
  ∀ (s : State) (p : Option Instr) (left : Nat), s.phase = .busy p left → s.lastErr ≤ 3 →
    (∃ k t, k ≤ left + 1 ∧ Host.Core.run Sys2Proof.core k s = .next t ∧ t.phase = .idle) ∧
    (.reset ∉ s.script.take left → ∃ t, Host.Core.run Sys2Proof.core (left + 1) s = .next t ∧ t.phase = .idle)

/-- R37: whatever the host does while busy (short of a reset), the completion step leaves the block as the command's
Exec at the state of acceptance would: computing the result at acceptance is the same as computing it at completion. The model's choices: that the pending result
is held as its command (log 1), and that the completion comes after exactly `left` steps of the host (log 2). -/
def Obligations.PendingResultIsFixedAtAcceptance : Prop :=
  ∀ (s : State) (i : Instr) (left : Nat), s.phase = .busy (some i) left → s.lastErr ≤ 3 →
    .reset ∉ s.script.take left →
    ∃ t, Host.Core.run Sys2Proof.core left s = .next t ∧ t.phase = .busy (some i) 0 ∧ SameEngine s t ∧
      ∃ u v, exec i s = .next u ∧ step t = .next v ∧ SameEngine u v ∧ u.phase = .idle ∧ v.phase = .idle

/-- R246, R244 item 4: a host that waits after every command never has a write dropped, at any step: its protocol and
ERR_BUSY = 0 are kept, and they hold when a disciplined script is placed at reset. -/
def Obligations.DisciplinedHostNeverLosesAWrite : Prop :=
  (∀ script, disciplined script = true → (State.reset.withScript script).KeepsProtocol) ∧
  ∀ s t : State, s.KeepsProtocol → step s = .next t → t.KeepsProtocol
end

