-- ==== Sys2Proof/Laws/State.lean ====
section
/-! SUPPORT. The fields of a state after each named update, one lemma per field, each true by unfolding once. -/

namespace Sys2Proof.Machine

section CompleteWith

variable (code : BitVec 3) (s : State)

@[simp] theorem completeWith_cmd : (completeWith code s).cmd = s.cmd := rfl
@[simp] theorem completeWith_ekValid : (completeWith code s).ekValid = s.ekValid := rfl
@[simp] theorem completeWith_simValid : (completeWith code s).simValid = s.simValid := rfl
@[simp] theorem completeWith_errBusy : (completeWith code s).errBusy = s.errBusy := rfl
@[simp] theorem completeWith_lastErr : (completeWith code s).lastErr = code := rfl
@[simp] theorem completeWith_ptLen : (completeWith code s).ptLen = s.ptLen := rfl
@[simp] theorem completeWith_keyLen : (completeWith code s).keyLen = s.keyLen := rfl
@[simp] theorem completeWith_gfA : (completeWith code s).gfA = s.gfA := rfl
@[simp] theorem completeWith_gfB : (completeWith code s).gfB = s.gfB := rfl
@[simp] theorem completeWith_gfRes : (completeWith code s).gfRes = s.gfRes := rfl
@[simp] theorem completeWith_traceCount : (completeWith code s).traceCount = s.traceCount := rfl
@[simp] theorem completeWith_pt : (completeWith code s).pt = s.pt := rfl
@[simp] theorem completeWith_key : (completeWith code s).key = s.key := rfl
@[simp] theorem completeWith_stateMatrix : (completeWith code s).stateMatrix = s.stateMatrix := rfl
@[simp] theorem completeWith_ek : (completeWith code s).ek = s.ek := rfl
@[simp] theorem completeWith_trace : (completeWith code s).trace = s.trace := rfl
@[simp] theorem completeWith_phase : (completeWith code s).phase = .idle := rfl
@[simp] theorem completeWith_script : (completeWith code s).script = s.script := rfl
@[simp] theorem completeWith_reads : (completeWith code s).reads = s.reads := rfl
@[simp] theorem completeWith_draws : (completeWith code s).draws = s.draws := rfl

end CompleteWith

section RaiseCmdError

variable (code : BitVec 3) (s : State)

@[simp] theorem raiseCmdError_cmd : (raiseCmdError code s).cmd = s.cmd := rfl
@[simp] theorem raiseCmdError_ekValid : (raiseCmdError code s).ekValid = s.ekValid := rfl
@[simp] theorem raiseCmdError_simValid : (raiseCmdError code s).simValid = s.simValid := rfl
@[simp] theorem raiseCmdError_errBusy : (raiseCmdError code s).errBusy = s.errBusy := rfl
@[simp] theorem raiseCmdError_lastErr : (raiseCmdError code s).lastErr = code := rfl
@[simp] theorem raiseCmdError_ptLen : (raiseCmdError code s).ptLen = s.ptLen := rfl
@[simp] theorem raiseCmdError_keyLen : (raiseCmdError code s).keyLen = s.keyLen := rfl
@[simp] theorem raiseCmdError_gfA : (raiseCmdError code s).gfA = s.gfA := rfl
@[simp] theorem raiseCmdError_gfB : (raiseCmdError code s).gfB = s.gfB := rfl
@[simp] theorem raiseCmdError_gfRes : (raiseCmdError code s).gfRes = s.gfRes := rfl
@[simp] theorem raiseCmdError_traceCount : (raiseCmdError code s).traceCount = s.traceCount := rfl
@[simp] theorem raiseCmdError_pt : (raiseCmdError code s).pt = s.pt := rfl
@[simp] theorem raiseCmdError_key : (raiseCmdError code s).key = s.key := rfl
@[simp] theorem raiseCmdError_stateMatrix : (raiseCmdError code s).stateMatrix = s.stateMatrix := rfl
@[simp] theorem raiseCmdError_ek : (raiseCmdError code s).ek = s.ek := rfl
@[simp] theorem raiseCmdError_trace : (raiseCmdError code s).trace = s.trace := rfl
@[simp] theorem raiseCmdError_phase : (raiseCmdError code s).phase = .idle := rfl
@[simp] theorem raiseCmdError_script : (raiseCmdError code s).script = s.script := rfl
@[simp] theorem raiseCmdError_reads : (raiseCmdError code s).reads = s.reads := rfl
@[simp] theorem raiseCmdError_draws : (raiseCmdError code s).draws = s.draws := rfl

end RaiseCmdError

section Succeed

variable (s : State)

@[simp] theorem succeed_cmd : (succeed s).cmd = s.cmd := rfl
@[simp] theorem succeed_ekValid : (succeed s).ekValid = s.ekValid := rfl
@[simp] theorem succeed_simValid : (succeed s).simValid = s.simValid := rfl
@[simp] theorem succeed_errBusy : (succeed s).errBusy = s.errBusy := rfl
@[simp] theorem succeed_lastErr : (succeed s).lastErr = codeOk := rfl
@[simp] theorem succeed_ptLen : (succeed s).ptLen = s.ptLen := rfl
@[simp] theorem succeed_keyLen : (succeed s).keyLen = s.keyLen := rfl
@[simp] theorem succeed_gfA : (succeed s).gfA = s.gfA := rfl
@[simp] theorem succeed_gfB : (succeed s).gfB = s.gfB := rfl
@[simp] theorem succeed_gfRes : (succeed s).gfRes = s.gfRes := rfl
@[simp] theorem succeed_traceCount : (succeed s).traceCount = s.traceCount := rfl
@[simp] theorem succeed_pt : (succeed s).pt = s.pt := rfl
@[simp] theorem succeed_key : (succeed s).key = s.key := rfl
@[simp] theorem succeed_stateMatrix : (succeed s).stateMatrix = s.stateMatrix := rfl
@[simp] theorem succeed_ek : (succeed s).ek = s.ek := rfl
@[simp] theorem succeed_trace : (succeed s).trace = s.trace := rfl
@[simp] theorem succeed_phase : (succeed s).phase = .idle := rfl
@[simp] theorem succeed_script : (succeed s).script = s.script := rfl
@[simp] theorem succeed_reads : (succeed s).reads = s.reads := rfl
@[simp] theorem succeed_draws : (succeed s).draws = s.draws := rfl

end Succeed

section BeginCommand

variable (c : Byte) (left : Nat) (s : State)

@[simp] theorem beginCommand_cmd : (beginCommand c left s).cmd = c := rfl
@[simp] theorem beginCommand_ekValid : (beginCommand c left s).ekValid = s.ekValid := rfl
@[simp] theorem beginCommand_simValid : (beginCommand c left s).simValid = if invalidatesSimulation (legalCommand c) then false else s.simValid := rfl
@[simp] theorem beginCommand_errBusy : (beginCommand c left s).errBusy = if clearsErrBusy (legalCommand c) then false else s.errBusy := rfl
@[simp] theorem beginCommand_lastErr : (beginCommand c left s).lastErr = s.lastErr := rfl
@[simp] theorem beginCommand_ptLen : (beginCommand c left s).ptLen = s.ptLen := rfl
@[simp] theorem beginCommand_keyLen : (beginCommand c left s).keyLen = s.keyLen := rfl
@[simp] theorem beginCommand_gfA : (beginCommand c left s).gfA = s.gfA := rfl
@[simp] theorem beginCommand_gfB : (beginCommand c left s).gfB = s.gfB := rfl
@[simp] theorem beginCommand_gfRes : (beginCommand c left s).gfRes = s.gfRes := rfl
@[simp] theorem beginCommand_traceCount : (beginCommand c left s).traceCount = if invalidatesSimulation (legalCommand c) then 0 else s.traceCount := rfl
@[simp] theorem beginCommand_pt : (beginCommand c left s).pt = s.pt := rfl
@[simp] theorem beginCommand_key : (beginCommand c left s).key = s.key := rfl
@[simp] theorem beginCommand_stateMatrix : (beginCommand c left s).stateMatrix = s.stateMatrix := rfl
@[simp] theorem beginCommand_ek : (beginCommand c left s).ek = s.ek := rfl
@[simp] theorem beginCommand_trace : (beginCommand c left s).trace = s.trace := rfl
@[simp] theorem beginCommand_phase : (beginCommand c left s).phase = .busy (legalCommand c) left := rfl
@[simp] theorem beginCommand_script : (beginCommand c left s).script = s.script := rfl
@[simp] theorem beginCommand_reads : (beginCommand c left s).reads = s.reads := rfl
@[simp] theorem beginCommand_draws : (beginCommand c left s).draws = s.draws := rfl

end BeginCommand

section AcceptCommand

variable (c : Byte) (s : State)

@[simp] theorem acceptCommand_cmd : (acceptCommand c s).cmd = c := rfl
@[simp] theorem acceptCommand_ekValid : (acceptCommand c s).ekValid = s.ekValid := rfl
@[simp] theorem acceptCommand_simValid : (acceptCommand c s).simValid = if invalidatesSimulation (legalCommand c) then false else s.simValid := rfl
@[simp] theorem acceptCommand_errBusy : (acceptCommand c s).errBusy = if clearsErrBusy (legalCommand c) then false else s.errBusy := rfl
@[simp] theorem acceptCommand_lastErr : (acceptCommand c s).lastErr = s.lastErr := rfl
@[simp] theorem acceptCommand_ptLen : (acceptCommand c s).ptLen = s.ptLen := rfl
@[simp] theorem acceptCommand_keyLen : (acceptCommand c s).keyLen = s.keyLen := rfl
@[simp] theorem acceptCommand_gfA : (acceptCommand c s).gfA = s.gfA := rfl
@[simp] theorem acceptCommand_gfB : (acceptCommand c s).gfB = s.gfB := rfl
@[simp] theorem acceptCommand_gfRes : (acceptCommand c s).gfRes = s.gfRes := rfl
@[simp] theorem acceptCommand_traceCount : (acceptCommand c s).traceCount = if invalidatesSimulation (legalCommand c) then 0 else s.traceCount := rfl
@[simp] theorem acceptCommand_pt : (acceptCommand c s).pt = s.pt := rfl
@[simp] theorem acceptCommand_key : (acceptCommand c s).key = s.key := rfl
@[simp] theorem acceptCommand_stateMatrix : (acceptCommand c s).stateMatrix = s.stateMatrix := rfl
@[simp] theorem acceptCommand_ek : (acceptCommand c s).ek = s.ek := rfl
@[simp] theorem acceptCommand_trace : (acceptCommand c s).trace = s.trace := rfl
@[simp] theorem acceptCommand_phase : (acceptCommand c s).phase = .busy (legalCommand c) (Config.freeLatency c s.draws) := rfl
@[simp] theorem acceptCommand_script : (acceptCommand c s).script = s.script := rfl
@[simp] theorem acceptCommand_reads : (acceptCommand c s).reads = s.reads := rfl
@[simp] theorem acceptCommand_draws : (acceptCommand c s).draws = s.draws + 1 := rfl

end AcceptCommand

section AppendPlaintext

variable (v : Byte) (s : State)

@[simp] theorem appendPlaintext_cmd : (appendPlaintext v s).cmd = s.cmd := rfl
@[simp] theorem appendPlaintext_ekValid : (appendPlaintext v s).ekValid = s.ekValid := rfl
@[simp] theorem appendPlaintext_simValid : (appendPlaintext v s).simValid = s.simValid := rfl
@[simp] theorem appendPlaintext_errBusy : (appendPlaintext v s).errBusy = s.errBusy := rfl
@[simp] theorem appendPlaintext_lastErr : (appendPlaintext v s).lastErr = s.lastErr := rfl
@[simp] theorem appendPlaintext_ptLen : (appendPlaintext v s).ptLen = countByte s.ptLen := rfl
@[simp] theorem appendPlaintext_keyLen : (appendPlaintext v s).keyLen = s.keyLen := rfl
@[simp] theorem appendPlaintext_gfA : (appendPlaintext v s).gfA = s.gfA := rfl
@[simp] theorem appendPlaintext_gfB : (appendPlaintext v s).gfB = s.gfB := rfl
@[simp] theorem appendPlaintext_gfRes : (appendPlaintext v s).gfRes = s.gfRes := rfl
@[simp] theorem appendPlaintext_traceCount : (appendPlaintext v s).traceCount = s.traceCount := rfl
@[simp] theorem appendPlaintext_pt : (appendPlaintext v s).pt = appendByte s.ptLen v s.pt := rfl
@[simp] theorem appendPlaintext_key : (appendPlaintext v s).key = s.key := rfl
@[simp] theorem appendPlaintext_stateMatrix : (appendPlaintext v s).stateMatrix = s.stateMatrix := rfl
@[simp] theorem appendPlaintext_ek : (appendPlaintext v s).ek = s.ek := rfl
@[simp] theorem appendPlaintext_trace : (appendPlaintext v s).trace = s.trace := rfl
@[simp] theorem appendPlaintext_phase : (appendPlaintext v s).phase = s.phase := rfl
@[simp] theorem appendPlaintext_script : (appendPlaintext v s).script = s.script := rfl
@[simp] theorem appendPlaintext_reads : (appendPlaintext v s).reads = s.reads := rfl
@[simp] theorem appendPlaintext_draws : (appendPlaintext v s).draws = s.draws := rfl

end AppendPlaintext

section AppendKey

variable (v : Byte) (s : State)

@[simp] theorem appendKey_cmd : (appendKey v s).cmd = s.cmd := rfl
@[simp] theorem appendKey_ekValid : (appendKey v s).ekValid = s.ekValid := rfl
@[simp] theorem appendKey_simValid : (appendKey v s).simValid = s.simValid := rfl
@[simp] theorem appendKey_errBusy : (appendKey v s).errBusy = s.errBusy := rfl
@[simp] theorem appendKey_lastErr : (appendKey v s).lastErr = s.lastErr := rfl
@[simp] theorem appendKey_ptLen : (appendKey v s).ptLen = s.ptLen := rfl
@[simp] theorem appendKey_keyLen : (appendKey v s).keyLen = countByte s.keyLen := rfl
@[simp] theorem appendKey_gfA : (appendKey v s).gfA = s.gfA := rfl
@[simp] theorem appendKey_gfB : (appendKey v s).gfB = s.gfB := rfl
@[simp] theorem appendKey_gfRes : (appendKey v s).gfRes = s.gfRes := rfl
@[simp] theorem appendKey_traceCount : (appendKey v s).traceCount = s.traceCount := rfl
@[simp] theorem appendKey_pt : (appendKey v s).pt = s.pt := rfl
@[simp] theorem appendKey_key : (appendKey v s).key = appendByte s.keyLen v s.key := rfl
@[simp] theorem appendKey_stateMatrix : (appendKey v s).stateMatrix = s.stateMatrix := rfl
@[simp] theorem appendKey_ek : (appendKey v s).ek = s.ek := rfl
@[simp] theorem appendKey_trace : (appendKey v s).trace = s.trace := rfl
@[simp] theorem appendKey_phase : (appendKey v s).phase = s.phase := rfl
@[simp] theorem appendKey_script : (appendKey v s).script = s.script := rfl
@[simp] theorem appendKey_reads : (appendKey v s).reads = s.reads := rfl
@[simp] theorem appendKey_draws : (appendKey v s).draws = s.draws := rfl

end AppendKey

section DropWrite

variable (s : State)

@[simp] theorem dropWrite_cmd : (dropWrite s).cmd = s.cmd := rfl
@[simp] theorem dropWrite_ekValid : (dropWrite s).ekValid = s.ekValid := rfl
@[simp] theorem dropWrite_simValid : (dropWrite s).simValid = s.simValid := rfl
@[simp] theorem dropWrite_errBusy : (dropWrite s).errBusy = true := rfl
@[simp] theorem dropWrite_lastErr : (dropWrite s).lastErr = s.lastErr := rfl
@[simp] theorem dropWrite_ptLen : (dropWrite s).ptLen = s.ptLen := rfl
@[simp] theorem dropWrite_keyLen : (dropWrite s).keyLen = s.keyLen := rfl
@[simp] theorem dropWrite_gfA : (dropWrite s).gfA = s.gfA := rfl
@[simp] theorem dropWrite_gfB : (dropWrite s).gfB = s.gfB := rfl
@[simp] theorem dropWrite_gfRes : (dropWrite s).gfRes = s.gfRes := rfl
@[simp] theorem dropWrite_traceCount : (dropWrite s).traceCount = s.traceCount := rfl
@[simp] theorem dropWrite_pt : (dropWrite s).pt = s.pt := rfl
@[simp] theorem dropWrite_key : (dropWrite s).key = s.key := rfl
@[simp] theorem dropWrite_stateMatrix : (dropWrite s).stateMatrix = s.stateMatrix := rfl
@[simp] theorem dropWrite_ek : (dropWrite s).ek = s.ek := rfl
@[simp] theorem dropWrite_trace : (dropWrite s).trace = s.trace := rfl
@[simp] theorem dropWrite_phase : (dropWrite s).phase = s.phase := rfl
@[simp] theorem dropWrite_script : (dropWrite s).script = s.script := rfl
@[simp] theorem dropWrite_reads : (dropWrite s).reads = s.reads := rfl
@[simp] theorem dropWrite_draws : (dropWrite s).draws = s.draws := rfl

end DropWrite

section ClearRegisters

variable (s : State)

@[simp] theorem clearRegisters_cmd : (clearRegisters s).cmd = s.cmd := rfl
@[simp] theorem clearRegisters_ekValid : (clearRegisters s).ekValid = false := rfl
@[simp] theorem clearRegisters_simValid : (clearRegisters s).simValid = s.simValid := rfl
@[simp] theorem clearRegisters_errBusy : (clearRegisters s).errBusy = s.errBusy := rfl
@[simp] theorem clearRegisters_lastErr : (clearRegisters s).lastErr = s.lastErr := rfl
@[simp] theorem clearRegisters_ptLen : (clearRegisters s).ptLen = 0 := rfl
@[simp] theorem clearRegisters_keyLen : (clearRegisters s).keyLen = 0 := rfl
@[simp] theorem clearRegisters_gfA : (clearRegisters s).gfA = 0x00 := rfl
@[simp] theorem clearRegisters_gfB : (clearRegisters s).gfB = 0x00 := rfl
@[simp] theorem clearRegisters_gfRes : (clearRegisters s).gfRes = 0x00 := rfl
@[simp] theorem clearRegisters_traceCount : (clearRegisters s).traceCount = s.traceCount := rfl
@[simp] theorem clearRegisters_pt : (clearRegisters s).pt = Vector.replicate 16 0x00 := rfl
@[simp] theorem clearRegisters_key : (clearRegisters s).key = Vector.replicate 16 0x00 := rfl
@[simp] theorem clearRegisters_stateMatrix : (clearRegisters s).stateMatrix = zeroMatrix := rfl
@[simp] theorem clearRegisters_ek : (clearRegisters s).ek = s.ek := rfl
@[simp] theorem clearRegisters_trace : (clearRegisters s).trace = s.trace := rfl
@[simp] theorem clearRegisters_phase : (clearRegisters s).phase = s.phase := rfl
@[simp] theorem clearRegisters_script : (clearRegisters s).script = s.script := rfl
@[simp] theorem clearRegisters_reads : (clearRegisters s).reads = s.reads := rfl
@[simp] theorem clearRegisters_draws : (clearRegisters s).draws = s.draws := rfl

end ClearRegisters

section StoreSimulation

variable (sim : Simulation) (s : State)

@[simp] theorem storeSimulation_cmd : (storeSimulation sim s).cmd = s.cmd := rfl
@[simp] theorem storeSimulation_ekValid : (storeSimulation sim s).ekValid = true := rfl
@[simp] theorem storeSimulation_simValid : (storeSimulation sim s).simValid = true := rfl
@[simp] theorem storeSimulation_errBusy : (storeSimulation sim s).errBusy = s.errBusy := rfl
@[simp] theorem storeSimulation_lastErr : (storeSimulation sim s).lastErr = s.lastErr := rfl
@[simp] theorem storeSimulation_ptLen : (storeSimulation sim s).ptLen = s.ptLen := rfl
@[simp] theorem storeSimulation_keyLen : (storeSimulation sim s).keyLen = s.keyLen := rfl
@[simp] theorem storeSimulation_gfA : (storeSimulation sim s).gfA = s.gfA := rfl
@[simp] theorem storeSimulation_gfB : (storeSimulation sim s).gfB = s.gfB := rfl
@[simp] theorem storeSimulation_gfRes : (storeSimulation sim s).gfRes = s.gfRes := rfl
@[simp] theorem storeSimulation_traceCount : (storeSimulation sim s).traceCount = 42 := rfl
@[simp] theorem storeSimulation_pt : (storeSimulation sim s).pt = s.pt := rfl
@[simp] theorem storeSimulation_key : (storeSimulation sim s).key = s.key := rfl
@[simp] theorem storeSimulation_stateMatrix : (storeSimulation sim s).stateMatrix = sim.final := rfl
@[simp] theorem storeSimulation_ek : (storeSimulation sim s).ek = sim.ek := rfl
@[simp] theorem storeSimulation_trace : (storeSimulation sim s).trace = sim.trace := rfl
@[simp] theorem storeSimulation_phase : (storeSimulation sim s).phase = s.phase := rfl
@[simp] theorem storeSimulation_script : (storeSimulation sim s).script = s.script := rfl
@[simp] theorem storeSimulation_reads : (storeSimulation sim s).reads = s.reads := rfl
@[simp] theorem storeSimulation_draws : (storeSimulation sim s).draws = s.draws := rfl

end StoreSimulation

section ResetBlock

variable (s : State)

@[simp] theorem resetBlock_cmd : (resetBlock s).cmd = 0x00 := rfl
@[simp] theorem resetBlock_ekValid : (resetBlock s).ekValid = false := rfl
@[simp] theorem resetBlock_simValid : (resetBlock s).simValid = false := rfl
@[simp] theorem resetBlock_errBusy : (resetBlock s).errBusy = false := rfl
@[simp] theorem resetBlock_lastErr : (resetBlock s).lastErr = 0 := rfl
@[simp] theorem resetBlock_ptLen : (resetBlock s).ptLen = 0 := rfl
@[simp] theorem resetBlock_keyLen : (resetBlock s).keyLen = 0 := rfl
@[simp] theorem resetBlock_gfA : (resetBlock s).gfA = 0x00 := rfl
@[simp] theorem resetBlock_gfB : (resetBlock s).gfB = 0x00 := rfl
@[simp] theorem resetBlock_gfRes : (resetBlock s).gfRes = 0x00 := rfl
@[simp] theorem resetBlock_traceCount : (resetBlock s).traceCount = 0 := rfl
@[simp] theorem resetBlock_pt : (resetBlock s).pt = Vector.replicate 16 0x00 := rfl
@[simp] theorem resetBlock_key : (resetBlock s).key = Vector.replicate 16 0x00 := rfl
@[simp] theorem resetBlock_stateMatrix : (resetBlock s).stateMatrix = Vector.replicate 4 (Vector.replicate 4 0x00) := rfl
@[simp] theorem resetBlock_ek : (resetBlock s).ek = initialEk s.draws := rfl
@[simp] theorem resetBlock_trace : (resetBlock s).trace = initialTrace s.draws := rfl
@[simp] theorem resetBlock_phase : (resetBlock s).phase = .idle := rfl
@[simp] theorem resetBlock_script : (resetBlock s).script = s.script := rfl
@[simp] theorem resetBlock_reads : (resetBlock s).reads = s.reads := rfl
@[simp] theorem resetBlock_draws : (resetBlock s).draws = s.draws + 1 := rfl

end ResetBlock

end Sys2Proof.Machine
end

