-- ==== Sys2Proof/Laws/Bus.lean ====
section
/-! SUPPORT. What a host access and a turn of the host can do, said once. -/

namespace Sys2Proof.Machine

theorem isBusy_eq_false {s : State} (h : s.phase = .idle) : s.isBusy = false := by simp [State.isBusy, h]

theorem isBusy_eq_true {s : State} {p : Option Instr} {left : Nat} (h : s.phase = .busy p left) : s.isBusy = true := by
  simp [State.isBusy, h]

/-- Bit 0 of STATUS is BUSY (10_state.md R23). -/
theorem status_bit0 (s : State) : s.status.getLsbD 0 = s.isBusy := by
  unfold State.status
  generalize s.lastErr = code, s.errBusy = e, s.simValid = v, s.ekValid = k, s.isBusy = b
  revert code e v k b
  decide

/-- What a host write can do: while busy it is dropped; while idle it is one of the five effects of 20_memory.md R61,
or none. -/
theorem hostWrite_cases (a : Addr) (v : Byte) (s : State) :
    (s.isBusy = true ∧ hostWrite a v s = dropWrite s) ∨
    (s.isBusy = false ∧ place a = .cmd ∧ hostWrite a v s = acceptCommand v s) ∨
    (s.isBusy = false ∧ place a = .ptPort ∧ hostWrite a v s = appendPlaintext v s) ∨
    (s.isBusy = false ∧ place a = .keyPort ∧ hostWrite a v s = appendKey v s) ∨
    (s.isBusy = false ∧ place a = .gfA ∧ hostWrite a v s = { s with gfA := v }) ∨
    (s.isBusy = false ∧ place a = .gfB ∧ hostWrite a v s = { s with gfB := v }) ∨
    (s.isBusy = false ∧ hostWrite a v s = s) := by
  cases hb : s.isBusy
  · cases hp : place a <;> simp [hostWrite, hb, hp, writePlace]
  · simp [hostWrite, hb]

/-- What a host read can do: while busy, at a place whose reads are draws, return the next draw; otherwise return the
byte there and change nothing. -/
theorem hostRead_ok {a : Addr} {s t : State} {b : Byte} (h : hostRead a s = .ok (b, t)) :
    (s.isBusy = true ∧ drawnWhileBusy (place a) = true ∧ b = Config.busyRead s.draws ∧
      t = { s with draws := s.draws + 1 }) ∨
    ((s.isBusy && drawnWhileBusy (place a)) = false ∧ b = s.peek a ∧ t = s) := by
  unfold hostRead at h
  split at h
  · next hd =>
    cases h
    rw [Bool.and_eq_true] at hd
    exact .inl ⟨hd.1, hd.2, rfl, rfl⟩
  · next hd =>
    split at h
    · cases h
    · cases h; exact .inr ⟨by simpa using hd, rfl, rfl⟩

/-- A host read faults only at STATUS, and only on a reserved outcome code (93_implementation_defined.md U10). -/
theorem hostRead_error {a : Addr} {s : State} {f : Fault} (h : hostRead a s = .error f) :
    place a = .status ∧ s.knownErrorCode = false ∧ f = .reservedErrorCode := by
  unfold hostRead at h
  split at h
  · cases h
  · split at h
    · next hc => cases h; exact ⟨hc.1, hc.2, rfl⟩
    · cases h

/-- What a recorded read can do: add the byte of a host read to `reads`, and set the script. -/
theorem recordRead_next {a : Addr} {f : Byte → List Action} {s t : State} (h : recordRead a f s = .next t) :
    ∃ b u, hostRead a s = .ok (b, u) ∧ t = { u with reads := (a, b) :: u.reads, script := f b } := by
  unfold recordRead at h
  split at h
  · next b u hr => cases h; exact ⟨b, u, hr, rfl⟩
  · cases h

/-- The place of STATUS, and of the other addresses with a name. -/
theorem place_status : place statusAddr = .status := by decide

theorem place_cmd : place cmdAddr = .cmd := by decide

/-- CMD has one address (20_memory.md R61). -/
theorem place_eq_cmd {a : Addr} (h : place a = .cmd) : a = cmdAddr := by
  have low : ∀ n : BitVec 4, registerPlace n = .cmd → n = 1 := by decide
  unfold place at h
  simp only at h
  split at h
  · next hn =>
    have h1 : (a.extractLsb' 0 4).toNat = 1 := congrArg BitVec.toNat (low _ h)
    simp at h1
    unfold cmdAddr
    bv_omega
  all_goals (repeat' split at h) <;> simp at h

/-- The legal byte of CLEAR, and of RUN (30_encoding.md R92). -/
theorem legalCommand_eq_clear (c : Byte) : legalCommand c = some .clear ↔ c = 0x10 := by
  revert c; decide +kernel

theorem legalCommand_eq_run (c : Byte) : legalCommand c = some .run ↔ c = 0x90 := by
  revert c; decide +kernel

/-- A turn of the host is nothing, a write, a read, a WAIT or a reset, by the head of the script. -/
theorem hostTurn_cases {s t : State} (h : hostTurn s = .next t) :
    (s.script = [] ∧ t = s) ∨
    (∃ a v rest, s.script = .write a v :: rest ∧ t = hostWrite a v { s with script := rest }) ∨
    (∃ a rest b u, s.script = .read a :: rest ∧ hostRead a s = .ok (b, u) ∧
      t = { u with reads := (a, b) :: u.reads, script := rest }) ∨
    (∃ rest, s.script = .wait :: rest ∧ t = { s with
      reads := (statusAddr, s.status) :: s.reads, script := if s.isBusy then .wait :: rest else rest }) ∨
    (∃ rest, s.script = .reset :: rest ∧ t = resetBlock { s with script := rest }) := by
  unfold hostTurn at h
  split at h
  · next hs => cases h; exact .inl ⟨hs, rfl⟩
  · next act rest hs =>
    cases act with
    | write a v => cases h; exact .inr (.inl ⟨a, v, rest, hs, rfl⟩)
    | read a =>
      obtain ⟨b, u, hr, rfl⟩ := recordRead_next h
      exact .inr (.inr (.inl ⟨a, rest, b, u, hs, hr, rfl⟩))
    | wait =>
      obtain ⟨b, u, hr, rfl⟩ := recordRead_next h
      rcases hostRead_ok hr with ⟨_, hd, _⟩ | ⟨_, rfl, rfl⟩
      · rw [place_status] at hd; cases hd
      · refine .inr (.inr (.inr (.inl ⟨rest, hs, ?_⟩)))
        have hb : u.peek statusAddr = u.status := by simp [State.peek, place_status, placeValue]
        rw [hb, status_bit0]
    | reset => cases h; exact .inr (.inr (.inr (.inr ⟨rest, hs, rfl⟩)))

/-- A read of STATUS with a known outcome code returns STATUS and changes nothing (70_reset_and_hazards.md R245). -/
theorem hostRead_status {s : State} (h : s.knownErrorCode = true) : hostRead statusAddr s = .ok (s.status, s) := by
  simp [hostRead, place_status, drawnWhileBusy, h, State.peek, placeValue]

end Sys2Proof.Machine
end

