-- ==== Sys2Proof/Laws/Engine.lean ====
section
/-! SUPPORT. What a command and a step can do, said once. -/

namespace Sys2Proof.Machine

/-- The writes of a command that succeeds, beside its outcome code, with the conditions under which it succeeds. -/
def CommandWrites (i : Instr) (s u : State) : Prop :=
  match i with
  | .nop => u = s
  | .clear => u = clearRegisters s
  | .load => s.ptLen = 16 ∧ u = { s with stateMatrix := toMatrix s.pt }
  | .expand => s.keyLen = 16 ∧ u = { s with ek := expandKey s.key, ekValid := true }
  | .subb => u = { s with stateMatrix := subBytes s.stateMatrix }
  | .shfr => u = { s with stateMatrix := shiftRows s.stateMatrix }
  | .mixc => u = { s with stateMatrix := mixColumns s.stateMatrix }
  | .ark n => s.ekValid = true ∧ ∃ h : n.toNat < 11,
      u = { s with stateMatrix := addRoundKey s.stateMatrix (roundKey s.ek ⟨n.toNat, h⟩) }
  | .gmul => u = { s with gfRes := gmul s.gfA s.gfB }
  | .run => s.ptLen = 16 ∧ s.keyLen = 16 ∧ u = storeSimulation (generateSimulation s.pt s.key) s

/-- What a command can do: record an error and nothing else, or write its results and record success. -/
theorem exec_cases {i : Instr} {s t : State} (h : exec i s = .next t) :
    (∃ code, code ∈ [errLen, errCmd, errSeq] ∧ t = raiseCmdError code s) ∨
    (∃ u, CommandWrites i s u ∧ t = succeed u) := by
  cases i with
  | nop => cases h; exact .inr ⟨s, rfl, rfl⟩
  | clear => cases h; exact .inr ⟨_, rfl, rfl⟩
  | load =>
    simp only [exec, execLoad] at h
    split at h
    · next hl => cases h; exact .inr ⟨_, ⟨hl, rfl⟩, rfl⟩
    · cases h; exact .inl ⟨errLen, by simp, rfl⟩
  | expand =>
    simp only [exec, execExpand] at h
    split at h
    · next hl => cases h; exact .inr ⟨_, ⟨hl, rfl⟩, rfl⟩
    · cases h; exact .inl ⟨errLen, by simp, rfl⟩
  | subb => cases h; exact .inr ⟨_, rfl, rfl⟩
  | shfr => cases h; exact .inr ⟨_, rfl, rfl⟩
  | mixc => cases h; exact .inr ⟨_, rfl, rfl⟩
  | ark n =>
    simp only [exec, execArk] at h
    split at h
    · next hn =>
      split at h
      · next hv => cases h; exact .inr ⟨_, ⟨hv, hn, rfl⟩, rfl⟩
      · cases h; exact .inl ⟨errSeq, by simp, rfl⟩
    · cases h; exact .inl ⟨errCmd, by simp, rfl⟩
  | gmul => cases h; exact .inr ⟨_, rfl, rfl⟩
  | run =>
    simp only [exec, execRun] at h
    split at h
    · next hl => cases h; exact .inr ⟨_, ⟨hl.1, hl.2, rfl⟩, rfl⟩
    · cases h; exact .inl ⟨errLen, by simp, rfl⟩

/-- What a step can do: a turn of the host (idle, or busy with turns left), or the completion of what is pending. -/
theorem step_cases {s t : State} (h : step s = .next t) :
    (s.phase = .idle ∧ hostTurn s = .next t) ∨
    (∃ i, s.phase = .busy (some i) 0 ∧ exec i s = .next t) ∨
    (s.phase = .busy none 0 ∧ t = raiseCmdError errCmd s) ∨
    (∃ p left, s.phase = .busy p (left + 1) ∧ hostTurn { s with phase := .busy p left } = .next t) := by
  unfold step turn at h
  split at h
  · next hp => exact .inl ⟨hp, h⟩
  · next p hp =>
    cases p with
    | some i => exact .inr (.inl ⟨i, hp, h⟩)
    | none => cases h; exact .inr (.inr (.inl ⟨hp, rfl⟩))
  · next p left hp => exact .inr (.inr (.inr ⟨p, left, hp, h⟩))

end Sys2Proof.Machine
end

