-- ==== Sys2Proof/Laws/Operands.lean ====
section
/-! SUPPORT. The small lemmas of matrices, round keys and the transformations: what is at a row and column, or at an
index. -/

namespace Sys2Proof.Machine

@[simp] theorem entry_matrixOf (f : Fin 4 → Fin 4 → Byte) (r c : Fin 4) : entry (matrixOf f) r c = f r c := by
  simp [entry, matrixOf, Vector.get_eq_getElem]

/-- Two matrices with the same byte at every row and column are equal. -/
theorem matrix_ext {a b : StateMatrix} (h : ∀ r c, entry a r c = entry b r c) : a = b := by
  apply Vector.ext
  intro r hr
  apply Vector.ext
  intro c hc
  simpa [entry, Vector.get_eq_getElem] using h ⟨r, hr⟩ ⟨c, hc⟩

/-- Two vectors of bytes with the same byte at every index are equal. -/
theorem bytes_ext {n : Nat} {a b : Vector Byte n} (h : ∀ i, a.get i = b.get i) : a = b := by
  apply Vector.ext
  intro i hi
  simpa [Vector.get_eq_getElem] using h ⟨i, hi⟩

@[simp] theorem get_ofFn {α : Type} {n : Nat} (f : Fin n → α) (i : Fin n) : (Vector.ofFn f).get i = f i := by
  simp [Vector.get_eq_getElem]

@[simp] theorem entry_zeroMatrix (r c : Fin 4) : entry zeroMatrix r c = 0x00 := by simp [zeroMatrix]

@[simp] theorem entry_toMatrix (b : Block) (r c : Fin 4) : entry (toMatrix b) r c = b.get (flatIndex r c) := by
  simp [toMatrix]

@[simp] theorem entry_subBytes (m : StateMatrix) (r c : Fin 4) : entry (subBytes m) r c = sbox (entry m r c) := by
  simp [subBytes]

@[simp] theorem entry_shiftRows (m : StateMatrix) (r c : Fin 4) : entry (shiftRows m) r c = entry m r (c + r) := by
  simp [shiftRows]

@[simp] theorem entry_mixColumns (m : StateMatrix) (r c : Fin 4) :
    entry (mixColumns m) r c = mixColumn (entry m 0 c) (entry m 1 c) (entry m 2 c) (entry m 3 c) r := by
  simp [mixColumns]

@[simp] theorem entry_addRoundKey (m k : StateMatrix) (r c : Fin 4) :
    entry (addRoundKey m k) r c = entry m r c ^^^ entry k r c := by
  simp [addRoundKey]

/-- A byte appended at a counter of 16 or more is not stored. -/
theorem appendByte_full {n : Byte} (v : Byte) (b : Block) (h : 16 ≤ n.toNat) : appendByte n v b = b := by
  simp [appendByte, Vector.setIfInBounds_eq_of_size_le h]

/-- A length counter at 16 or more stays there. -/
theorem countByte_full {n : Byte} (h : 16 ≤ n.toNat) : 16 ≤ (countByte n).toNat := by
  unfold countByte
  split
  · decide
  · bv_omega

end Sys2Proof.Machine
end

