-- ==== Sys2Proof/Laws/PerInstr.lean ====
section
/-! SUPPORT. Per instruction: the two fields of its command byte (30_encoding.md R91, R92). -/

namespace Sys2Proof.Laws.CommandFields

/-- The opcode of a command: the OP column of 30_encoding.md R92. -/
def opcode : Instr → BitVec 4
  | .nop => 0x0
  | .clear => 0x1
  | .load => 0x2
  | .expand => 0x3
  | .subb => 0x4
  | .shfr => 0x5
  | .mixc => 0x6
  | .ark _ => 0x7
  | .gmul => 0x8
  | .run => 0x9

/-- The argument of a command: the round number for ARK, 0 for every other (30_encoding.md R91). -/
def argument : Instr → BitVec 4
  | .ark n => n
  | .nop => 0
  | .clear => 0
  | .load => 0
  | .expand => 0
  | .subb => 0
  | .shfr => 0
  | .mixc => 0
  | .gmul => 0
  | .run => 0

/-- The command byte of `i` has the opcode and the argument of `i` in its two fields. -/
def Statement (i : Instr) : Prop := commandOp (encodeByte i) = opcode i ∧ commandArg (encodeByte i) = argument i

theorem nop : Statement .nop := ⟨by decide, by decide⟩
theorem clear : Statement .clear := ⟨by decide, by decide⟩
theorem load : Statement .load := ⟨by decide, by decide⟩
theorem expand : Statement .expand := ⟨by decide, by decide⟩
theorem subb : Statement .subb := ⟨by decide, by decide⟩
theorem shfr : Statement .shfr := ⟨by decide, by decide⟩
theorem mixc : Statement .mixc := ⟨by decide, by decide⟩
theorem ark : ∀ n, Statement (.ark n) := by unfold Statement; decide
theorem gmul : Statement .gmul := ⟨by decide, by decide⟩
theorem run : Statement .run := ⟨by decide, by decide⟩

end Sys2Proof.Laws.CommandFields
end

