-- ==== Sys2Proof/Laws/Sequencer.lean ====
section
/-! SUPPORT. What a trace entry of a RUN holds, said once, and the words of the key schedule. -/

namespace Sys2Proof.Machine

/-- Entry `j` of a list of steps is the entry of step `j`, with the matrix after the first `j + 1` steps. -/
theorem runSteps_getElem (ek : ExpandedKey) (steps : List ScheduleStep) (k j : Nat) (m : StateMatrix)
    (hj : j < (runSteps ek steps k m).length) (hs : j < steps.length) :
    (runSteps ek steps k m)[j] = traceEntry ek (k + j) steps[j] (matrixAfter ek (steps.take (j + 1)) m) := by
  induction steps generalizing k j m with
  | nil => simp at hs
  | cons st rest ih =>
    cases j with
    | zero => simp [runSteps, matrixAfter]
    | succ j =>
      have hs' : j < rest.length := by simpa using hs
      simp only [runSteps, List.getElem_cons_succ, List.take_succ_cons, matrixAfter]
      rw [ih (k + 1) j _ (by simpa [runSteps_length] using hs') hs']
      congr 1
      omega

/-- The schedule has 42 steps (43_sequencer.md R174). -/
theorem schedule_length : schedule.length = 42 := rfl

/-- Entry `k` of a RUN: the step of the schedule, with the matrix after the first `k + 1` steps. -/
theorem simulationTrace_get (ek : ExpandedKey) (m : StateMatrix) (k : Fin 42) :
    (simulationTrace ek m).get k =
      traceEntry ek k.val (schedule[k.val]'(by rw [schedule_length]; exact k.isLt))
        (matrixAfter ek (schedule.take (k.val + 1)) m) := by
  simp only [simulationTrace, Vector.get_eq_getElem, Vector.getElem_mk, List.getElem_toArray]
  rw [runSteps_getElem ek schedule 0 k.val m _ (by rw [schedule_length]; exact k.isLt)]
  simp

/-- The matrix after one step more. -/
theorem matrixAfter_append (ek : ExpandedKey) (steps more : List ScheduleStep) (m : StateMatrix) :
    matrixAfter ek (steps ++ more) m = matrixAfter ek more (matrixAfter ek steps m) := by
  induction steps generalizing m with
  | nil => rfl
  | cons st rest ih => exact ih _

/-- The window at `j` starts with the words `w[j]`, `w[j+1]`, `w[j+2]`, `w[j+3]` of the schedule. -/
theorem wordWindow_eq (key : Block) (j : Nat) :
    wordWindow key j =
      ⟨scheduleWord key j, scheduleWord key (j + 1), scheduleWord key (j + 2), scheduleWord key (j + 3)⟩ := rfl

/-- The recurrence of the key schedule (41_key_schedule.md R133) on the words themselves. -/
theorem scheduleWord_add_four (key : Block) (j : Nat) :
    scheduleWord key (j + 4) =
      xorWord (scheduleWord key j) (scheduleTransform (j + 4) (scheduleWord key (j + 3))) := rfl

end Sys2Proof.Machine
end

