-- ==== Sys2Proof/Tests/Slice0.lean ====
section
/-! SUPPORT. Tests of the model against the spec's own encodings and vectors (95_test_vectors.md, cited V<n> and P<n>),
and the witnesses of the obligations: concrete states that meet their hypotheses. -/

namespace Sys2Proof.Tests

open Sys2Proof.Machine

set_option maxRecDepth 4000

/-! ### Helpers -/

/-- A flat 16-byte string from its hexadecimal number, byte 0 first. -/
def hexBlock (n : Nat) : Block := Vector.ofFn fun i => BitVec.ofNat 8 (n >>> (8 * (15 - i.val)))

/-- The plaintext of V1. -/
def kavPlaintext : Block := hexBlock 0x00112233445566778899aabbccddeeff

/-- The key of V1. -/
def kavKey : Block := hexBlock 0x000102030405060708090a0b0c0d0e0f

/-- A block with the inputs of V1 written and the given matrix in STATE. -/
def loaded (m : Block) : State :=
  { State.reset with pt := kavPlaintext, ptLen := 16, key := kavKey, keyLen := 16, stateMatrix := toMatrix m }

/-- `loaded` with the expanded key of V12 in EK. -/
def keyed (m : Block) : State := { loaded m with ek := expandKey kavKey, ekValid := true }

/-- A busy block with one host turn left before the completion of `p`. -/
def busyWith (p : Option Instr) (script : List Action) : State :=
  { State.reset with cmd := 0x40, phase := .busy p 1, script := script }

/-- What holds of the next state; false of a fault or a refusal. -/
def nextHolds (o : Host.Outcome State Fault Refusal) (f : State → Bool) : Bool :=
  match o with
  | .next t => f t
  | .fault _ => false
  | .refused _ => false

/-- The flat STATE of the next state. -/
def nextFlat (o : Host.Outcome State Fault Refusal) (b : Block) : Bool :=
  nextHolds o fun t => decide (fromMatrix t.stateMatrix = b)

/-! ### Well-formed commands, decoding (30_encoding.md R92, R94; V21) -/

theorem test_wf_refuses_round_eleven : Instr.wf (.ark 11) = false := by decide
theorem test_wf_accepts_round_ten : Instr.wf (.ark 10) = true := by decide

theorem test_decode_nop : decodeByte 0b00000000 = .ok .nop := by decide
theorem test_decode_clear : decodeByte 0b00010000 = .ok .clear := by decide
theorem test_decode_load : decodeByte 0b00100000 = .ok .load := by decide
theorem test_decode_expand : decodeByte 0b00110000 = .ok .expand := by decide
theorem test_decode_subb : decodeByte 0b01000000 = .ok .subb := by decide
theorem test_decode_shfr : decodeByte 0b01010000 = .ok .shfr := by decide
theorem test_decode_mixc : decodeByte 0b01100000 = .ok .mixc := by decide
theorem test_decode_ark_zero : decodeByte 0b01110000 = .ok (.ark 0) := by decide
theorem test_decode_ark_ten : decodeByte 0b01111010 = .ok (.ark 10) := by decide
theorem test_decode_gmul : decodeByte 0b10000000 = .ok .gmul := by decide
theorem test_decode_run : decodeByte 0b10010000 = .ok .run := by decide

theorem test_decode_refuses_round_eleven : decodeByte 0x7B = .error .roundOutOfRange := by decide
theorem test_decode_refuses_argument : decodeByte 0x91 = .error .argumentNotZero := by decide
theorem test_decode_refuses_reserved : decodeByte 0xA0 = .error .reservedOpcode := by decide
theorem test_decode_refuses_no_byte : decode [] = .error .noByte := by decide
theorem test_decode_keeps_the_rest : decode [0x75, 0x90] = .ok (.ark 5, [0x90]) := by rfl
theorem test_table_word : decodeTableWord 8 0x7A = some (.ark 10) := by decide
theorem test_assemble_ark : assemble .ARK (some 5) = some 0x75 ∧ assemble .ARK (some 11) = none := by decide

/-! ### The commands, each against a vector of 95_test_vectors.md -/

theorem test_nop_clears_last_err :
    nextHolds (exec .nop { State.reset with lastErr := 1, errBusy := true }) (fun t => t.status = 0x08) := by decide

theorem test_clear_keeps_err_busy_set_meanwhile :
    nextHolds (exec .clear { loaded kavKey with errBusy := true })
      (fun t => t.errBusy ∧ t.ptLen = 0 ∧ t.pt.get 15 = 0 ∧ entry t.stateMatrix 3 3 = 0) := by decide

/-- V17: STATE[0][1] = 0x44 and STATE[1][0] = 0x11 after LOAD. -/
theorem test_load_fills_columns :
    nextHolds (exec .load (loaded kavKey)) (fun t => t.peek 0x031 = 0x44 ∧ t.peek 0x034 = 0x11) := by decide

theorem test_load_refuses_seventeen :
    nextHolds (exec .load { loaded kavKey with ptLen := 17 }) (fun t => t.status = 0x10) := by decide

/-- V12: EK[16] and EK[175] of the key 000102...0f. -/
theorem test_expand_round_keys :
    nextHolds (exec .expand (loaded kavKey))
      (fun t => t.status = 0x02 ∧ t.peek 0x310 = 0xD6 ∧ t.peek 0x3AF = 0xC5) := by decide +kernel

theorem test_expand_refuses_fifteen :
    nextHolds (exec .expand { loaded kavKey with keyLen := 15 }) (fun t => t.status = 0x10) := by decide

/-- V13. -/
theorem test_subb :
    nextFlat (exec .subb (loaded (hexBlock 0x00102030405060708090a0b0c0d0e0f0)))
      (hexBlock 0x63cab7040953d051cd60e0e7ba70e18c) := by decide +kernel

/-- V14. -/
theorem test_shfr :
    nextFlat (exec .shfr (loaded (hexBlock 0x63cab7040953d051cd60e0e7ba70e18c)))
      (hexBlock 0x6353e08c0960e104cd70b751bacad0e7) := by decide +kernel

/-- V15. -/
theorem test_mixc :
    nextFlat (exec .mixc (loaded (hexBlock 0x6353e08c0960e104cd70b751bacad0e7)))
      (hexBlock 0x5f72641557f5bc92f7be3b291db9f91a) := by decide +kernel

/-- V16. -/
theorem test_ark_one :
    nextFlat (exec (.ark 1) (keyed (hexBlock 0x5f72641557f5bc92f7be3b291db9f91a)))
      (hexBlock 0x89d810e8855ace682d1843d8cb128fe4) := by decide +kernel

/-- V16: ERR_SEQ, STATUS = 0x30. -/
theorem test_ark_refuses_without_key :
    nextHolds (exec (.ark 5) State.reset) (fun t => t.status = 0x30) := by decide

/-- V10: 57 · 83 = C1. -/
theorem test_gmul :
    nextHolds (exec .gmul { State.reset with gfA := 0x57, gfB := 0x83 }) (fun t => t.gfRes = 0xC1) := by decide

/-- V10: 80 · 02 = 1B and FF · FF = 13. -/
theorem test_gmul_reduces : gmul 0x80 0x02 = 0x1B ∧ gmul 0xFF 0xFF = 0x13 := by decide

/-- V1, V19: the known-answer ciphertext, in STATE and in the FINAL entry. -/
theorem test_run_known_answer :
    nextHolds (exec .run (loaded kavKey)) (fun t =>
      fromMatrix t.stateMatrix = hexBlock 0x69c4e0d86a7b0430d8cdb78070b4c55a ∧
      t.stateMatrix = (t.trace.get 41).s ∧ t.traceCount = 0x2A) := by decide +kernel

/-- V18: header and matrices of entry 40, by byte reads. -/
theorem test_run_entry_forty :
    nextHolds (exec .run (loaded kavKey)) (fun t =>
      t.peek 0xE00 = 0x28 ∧ t.peek 0xE01 = 0x0A ∧ t.peek 0xE02 = 0x04 ∧ t.peek 0xE03 = 0x01 ∧ t.peek 0xE04 = 0x00 ∧
      t.peek 0xE20 = 0x13 ∧ t.peek 0xE21 = 0xE3) := by decide +kernel

/-! ### The bus, the ports and the step (V11, V20, V21, P6) -/

theorem test_rom_reads : State.reset.peek 0x153 = 0xED ∧ State.reset.peek 0x20A = 0x36 ∧ State.reset.peek 0x20B = 0 := by
  decide

/-- V20: a 17th byte is counted and not stored. -/
theorem test_seventeenth_byte :
    (hostWrite 0x002 0x10 (loaded kavKey)).ptLen = 0x11 ∧ (hostWrite 0x002 0x10 (loaded kavKey)).pt = kavPlaintext := by
  decide

/-- V20: the counter saturates. -/
theorem test_counter_saturates : countByte 255 = 255 ∧ countByte 16 = 17 := by decide

/-- V21: 0x91 keeps SIM_VALID; 0x90 clears it at acceptance. -/
theorem test_acceptance_of_illegal_run :
    (beginCommand 0x91 0 { State.reset with simValid := true }).simValid = true ∧
    (beginCommand 0x90 0 { State.reset with simValid := true }).simValid = false := by decide

/-- V21: an illegal byte completes with ERR_CMD. -/
theorem test_step_illegal : nextHolds (step (State.reset.withFetchWord 8 0xB5)) (fun t =>
    t.status = 0x20 ∧ t.cmd = 0xB5) := by decide

/-- P5: ARK 5 from reset, as the next step. -/
theorem test_step_ark_from_reset : nextHolds (step (State.reset.withFetchWord 8 0x75)) (fun t =>
    t.status = 0x30 ∧ t.cmd = 0x75) := by decide

/-- P6 case (a): a port write while busy is dropped and sets ERR_BUSY. -/
theorem test_step_busy_write_dropped :
    nextHolds (step (busyWith (some .subb) [.write 0x002 0x55])) (fun t =>
      t.status = 0x09 ∧ t.ptLen = 0 ∧ t.script = []) := by decide

/-- WAIT reads BUSY = 1 and stays (30_encoding.md R98). -/
theorem test_step_wait_stays :
    nextHolds (step (busyWith (some .subb) [.wait])) (fun t => t.reads = [(0x000, 0x01)] ∧ t.script = [.wait]) := by decide

/-- R245: a busy read of EK is a draw. -/
theorem test_busy_read_is_a_draw : hostRead 0x300 (busyWith none []) =
    .ok (Config.busyRead 1, { busyWith none [] with draws := 2 }) := by rfl

/-- R67: a reserved offset of a trace entry reads 0x00 while busy too. -/
theorem test_busy_read_of_reserved_trace_offset :
    hostRead 0xE04 (busyWith none []) = .ok (0x00, busyWith none []) := by rfl

/-- R98: READM 0x030 reads 0x030 first and 0x03F last. -/
theorem test_readm_addresses :
    (expandReadm 0x030)[0]? = some (.read 0x030) ∧ (expandReadm 0x030)[15]? = some (.read 0x03F) := by decide

theorem test_reserved_code_faults : step { State.reset with lastErr := 4, script := [.read 0x000] } =
    .fault .reservedErrorCode := by rfl

/-- R98: DO m is CMD m and WAIT. -/
theorem test_expand_do : expandLine (.DO .ARK (some 5)) = some [.write 0x001 0x75, .wait] := by decide

/-! ### Witnesses: a state that meets the hypotheses of each obligation that has some -/

theorem witness_RegistersAndBuffersReadAtTheirAddresses :
    State.reset.isBusy = false ∧ State.reset.lastErr ≤ 3 := by decide

theorem witness_TraceWindowReadsItsEntry : (loaded kavKey).isBusy = false := by decide

theorem witness_ReservedAddressReadsZero :
    reservedAddress 0x00A ∧ reservedAddress 0x00F ∧ reservedAddress 0x0FF ∧ reservedAddress 0x20B ∧
      reservedAddress 0x3B0 ∧ reservedAddress 0xE80 ∧ reservedAddress 0xFFF ∧ ¬ reservedAddress 0x20A ∧
      ¬ reservedAddress 0x3AF ∧ ¬ reservedAddress 0x403 ∧ reservedAddress 0x404 ∧ reservedAddress 0x40F ∧
      ¬ reservedAddress 0x410 ∧ ¬ reservedAddress 0xE6F ∧ reservedAddress 0xE70 ∧ reservedAddress 0xE7F := by
  simp [reservedAddress, reservedTraceAddress]

theorem witness_BusyReadsFollowTheTwoLists :
    (busyWith none []).isBusy = true ∧ (busyWith none []).lastErr ≤ 3 ∧ drawnAddress 0x004 ∧ drawnAddress 0x008 ∧
      drawnAddress 0x02F ∧ drawnAddress 0x3AF ∧ drawnAddress 0x403 ∧ drawnAddress 0xE6F ∧ ¬ drawnAddress 0x009 ∧
      ¬ drawnAddress 0x040 ∧ ¬ drawnAddress 0x404 ∧ ¬ drawnAddress 0xE70 := by
  refine ⟨by decide, by decide, ?_⟩
  simp [drawnAddress, reservedTraceAddress]

theorem witness_BusyReadsFollowTheTwoLists_actions :
    (busyWith none [.read 0x030]).phase = .busy none (0 + 1) ∧ (busyWith none [.read 0x030]).script = [.read 0x030] ∧
      (busyWith none [.read 0x404]).script = [.read 0x404] ∧ (busyWith none [.wait]).script = [.wait] ∧
      (busyWith none [.wait]).lastErr ≤ 3 := by decide

theorem witness_ReadmReportsTheFlatMatrix : (loaded kavKey).phase = .idle := rfl

theorem witness_ScriptLinesExpandToTheirActions :
    assemble .RUN none = some 0x90 ∧ assemble .ARK (some 11) = none ∧
      ∃ acts, expandScript [.DO .RUN none, .R 0x009] = some acts := ⟨by decide, by decide, _, rfl⟩

theorem witness_WritesElsewhereAreIgnored :
    State.reset.isBusy = false ∧ (0x008 : Addr) ∉ [(0x001 : Addr), 0x002, 0x003, 0x006, 0x007] ∧
      (busyWith none []).isBusy = true := by decide

theorem witness_BusyWriteIsDropped : (busyWith none []).phase = .busy none 1 := by decide

theorem witness_OperandWritesAreStored :
    State.reset.isBusy = false ∧ (busyWith (some .gmul) []).isBusy = true := by decide

theorem witness_PortWritesAppendAndCount : State.reset.isBusy = false ∧ State.reset.ptLen.toNat < 16 := by decide

theorem witness_DecodeAndEncodeAgree : Instr.wf (.ark 10) = true ∧ decodeByte 0x7A = .ok (.ark 10) := by decide

theorem witness_IllegalBytesRecordErrCmdOnly :
    legalCommand 0x7B = none ∧ legalCommand 0x01 = none ∧ legalCommand 0xA0 = none ∧ legalCommand 0x7A ≠ none := by decide

theorem witness_PutPseudoInstructionsFillTheBuffers :
    State.reset.phase = .idle ∧ State.reset.ptLen = 0 ∧ State.reset.keyLen = 0 := by decide

theorem witness_StepRunsTheDecodedCommand :
    decodeByte 0x40 = .ok .subb ∧ { State.reset with phase := .busy (some .subb) 0 }.phase = .busy (some .subb) 0 ∧
      (busyWith none []).phase = .busy none (0 + 1) ∧ State.reset.phase = .idle := ⟨by decide, rfl, rfl, rfl⟩

theorem witness_WriteToCmdIsAccepted :
    (State.reset.withScript [.write 0x001 0x90, .wait]).phase = .idle ∧
      (State.reset.withScript [.write 0x001 0x90, .wait]).script = .write 0x001 0x90 :: [.wait] := ⟨rfl, rfl⟩

theorem witness_IdleEngineKeepsItsState :
    (State.reset.withScript [.read 0x030]).phase = .idle ∧ (State.reset.withScript [.read 0x030]).lastErr ≤ 3 ∧
      (∃ a rest, (State.reset.withScript [.read 0x030]).script = .read a :: rest) ∧
      (State.reset.withScript [.wait]).script = [.wait] ∧ State.reset.script = [] :=
  ⟨rfl, by decide, ⟨0x030, [], rfl⟩, rfl, rfl⟩

theorem witness_LoadConvertsThePlaintext : (loaded kavKey).ptLen = 16 ∧ State.reset.ptLen ≠ 16 := by decide

theorem witness_ExpandWritesTheExpandedKey : (loaded kavKey).keyLen = 16 ∧ State.reset.keyLen ≠ 16 := by decide

theorem witness_ArkXorsTheRoundKey :
    (10 : BitVec 4).toNat ≤ 10 ∧ (keyed kavKey).ekValid = true ∧ State.reset.ekValid = false ∧
      10 < (11 : BitVec 4).toNat := by decide

theorem witness_RunStoresTheSimulation :
    ((loaded kavKey).ptLen = 16 ∧ (loaded kavKey).keyLen = 16) ∧
      ¬ (State.reset.ptLen = 16 ∧ State.reset.keyLen = 16) := by decide

theorem witness_AfterRunStateIsTheLastSnapshot : (loaded kavKey).ptLen = 16 ∧ (loaded kavKey).keyLen = 16 := by decide

theorem witness_RunDependsOnItsInputsAlone :
    (keyed kavPlaintext).pt = (loaded kavKey).pt ∧ (keyed kavPlaintext).key = (loaded kavKey).key ∧
      (loaded kavKey).ptLen = 16 ∧ (loaded kavKey).keyLen = 16 ∧ (keyed kavPlaintext).ptLen = 16 ∧
      (keyed kavPlaintext).keyLen = 16 := ⟨rfl, rfl, rfl, rfl, rfl, rfl⟩

theorem witness_RejectedRunWritesOnlyItsCode : State.reset.ptLen ≠ 16 ∨ State.reset.keyLen ≠ 16 := by decide

theorem witness_GmulMakesTheBytesAField : (0x53 : Byte) ≠ 0 := by decide

theorem witness_SboxIsTheAffineMapOfTheInverse : gmul 0x53 0xCA = 0x01 := by decide

theorem witness_ExpandedKeyBoundaries :
    1 ≤ (10 : Fin 11).val ∧ 16 ≤ (175 : Fin 176).val ∧ 4 ≤ (175 : Fin 176).val % 16 ∧ 4 ≤ (43 : Fin 44).val := by decide

theorem witness_TransformsUndoThemselves : ∀ r, entry zeroMatrix r 0 = 0x00 := by decide

theorem witness_ErrorsArePrecise :
    ∃ t, completeCommand (some .load) State.reset = .next t ∧ t.lastErr ≠ 0 := ⟨_, rfl, by decide⟩

theorem witness_OnlyArkRaisesErrSeq :
    (5 : BitVec 4).toNat ≤ 10 ∧ State.reset.ekValid = false ∧
      ∃ t, completeCommand (some (.ark 5)) State.reset = .next t ∧ t.lastErr = 3 := ⟨by decide, rfl, _, rfl, by decide⟩

theorem witness_CommandsChangeOnlyTheirOwnBytes :
    (∃ t, exec .gmul State.reset = .next t) ∧ (0x009 : Addr) ≠ 0x000 ∧ ¬ writtenBy .gmul (0x009 : Addr).toNat :=
  ⟨⟨_, rfl⟩, by decide, by simp [writtenBy]⟩

theorem witness_OnlyRunAndResetChangeTheTrace_completion :
    (some Instr.clear : Option Instr) ≠ some .run ∧ ∃ t, completeCommand (some .clear) State.reset = .next t :=
  ⟨by decide, _, rfl⟩

/-- `loaded` with an all-zero trace RAM and a RUN whose completion step is due. -/
def runDue : State :=
  { loaded kavKey with
    trace := Vector.replicate 42 ⟨0, 0, 0, 0, zeroMatrix, zeroMatrix⟩
    phase := .busy (some .run) 0 }

theorem witness_OnlyRunAndResetChangeTheTrace_step : ∃ t, step runDue = .next t ∧ t.trace ≠ runDue.trace := by
  refine ⟨_, rfl, fun same => ?_⟩
  have index := congrArg (fun trace => (trace.get 1).stepIndex) same
  revert index
  decide

theorem witness_ErrBusyIsSticky_set :
    (busyWith none [.write 0x006 0x01]).phase = .busy none (0 + 1) ∧ (busyWith none [.write 0x006 0x01]).errBusy = false ∧
      nextHolds (step (busyWith none [.write 0x006 0x01])) (fun t => t.errBusy) = true := by decide

theorem witness_ErrBusyIsSticky_cleared_by_reset :
    ∃ t, step { State.reset with errBusy := true, script := [.reset] } = .next t ∧ t.errBusy = false := ⟨_, rfl, rfl⟩

theorem witness_ErrBusyIsSticky_cleared :
    ∃ t, step { State.reset with errBusy := true, script := [.write 0x001 0x10] } = .next t ∧ t.errBusy = false :=
  ⟨_, rfl, rfl⟩

theorem witness_TraceFollowsTheSchedule :
    ({ State.reset with trace := (generateSimulation kavPlaintext kavKey).trace } : State).trace =
      (generateSimulation kavPlaintext kavKey).trace := rfl

theorem witness_LastErrChangesOnlyAtCompletionOrReset :
    ∃ t, step { State.reset with phase := .busy none 0 } = .next t ∧ t.lastErr ≠ State.reset.lastErr :=
  ⟨_, rfl, by decide⟩

/-- A state other than reset that meets the invariant and steps on. -/
theorem witness_StepKeepsTheInvariant :
    ({ State.reset with phase := .busy (some .nop) 0 } : State).Inv ∧
      ∃ t, step { State.reset with phase := .busy (some .nop) 0 } = .next t := by
  refine ⟨⟨by decide, by decide, by simp [State.reset], by simp [State.reset], ?_⟩, _, rfl⟩
  intro p left h
  cases h
  exact ⟨by decide, by decide⟩

theorem witness_StepStopsOnlyOnAReservedCode :
    ∃ f, step { State.reset with lastErr := 7, script := [.wait] } = .fault f := ⟨.reservedErrorCode, rfl⟩

theorem witness_EveryAcceptedCommandCompletes :
    (busyWith (some .subb) [.read 0x000]).phase = .busy (some .subb) 1 ∧
      (busyWith (some .subb) [.read 0x000]).lastErr ≤ 3 ∧
      Action.reset ∉ (busyWith (some .subb) [.read 0x000]).script.take 1 := by decide

theorem witness_PendingResultIsFixedAtAcceptance :
    (busyWith (some .shfr) [.write 0x002 0x55]).phase = .busy (some .shfr) 1 ∧
      (busyWith (some .shfr) [.write 0x002 0x55]).lastErr ≤ 3 ∧
      Action.reset ∉ (busyWith (some .shfr) [.write 0x002 0x55]).script.take 1 := by decide

theorem witness_DisciplinedHostNeverLosesAWrite :
    disciplined [.write 0x001 0x90, .wait, .read 0x009] = true ∧
      (busyWith (some .subb) [.wait, .read 0x030]).KeepsProtocol ∧
      ∃ t, step (busyWith (some .subb) [.wait, .read 0x030]) = .next t :=
  ⟨by decide, ⟨by decide, rfl, fun _ => by decide⟩, _, rfl⟩

end Sys2Proof.Tests
end

section
/-! PROOFS. The conversions between flat blocks and matrices (00_scope.md R10): the flat index and the pair of its row
and column determine each other, so each conversion undoes the other. -/

namespace Sys2Proof.Machine

@[simp] theorem get_fromMatrix (m : StateMatrix) (i : Fin 16) :
    (fromMatrix m).get i = entry m ⟨i.val % 4, by omega⟩ ⟨i.val / 4, by omega⟩ := by
  simp [fromMatrix]

/-- The row and column that `fromMatrix` reads for index `i` lead `toMatrix` back to `i`. -/
theorem flatIndex_mod_div (i : Fin 16) : flatIndex ⟨i.val % 4, by omega⟩ ⟨i.val / 4, by omega⟩ = i :=
  Fin.ext (Nat.mod_add_div i.val 4)

theorem flatIndex_mod (r c : Fin 4) : (flatIndex r c).val % 4 = r.val := by
  simp only [flatIndex]
  omega

theorem flatIndex_div (r c : Fin 4) : (flatIndex r c).val / 4 = c.val := by
  simp only [flatIndex]
  omega

theorem fromMatrix_toMatrix (b : Block) : fromMatrix (toMatrix b) = b := by
  apply bytes_ext
  intro i
  rw [get_fromMatrix, entry_toMatrix, flatIndex_mod_div]

theorem toMatrix_fromMatrix (m : StateMatrix) : toMatrix (fromMatrix m) = m := by
  apply matrix_ext
  intro r c
  rw [entry_toMatrix, get_fromMatrix]
  simp only [flatIndex_mod, flatIndex_div]

/-- Settles O43: the two index formulas, and the two round trips from the bijection between an index and its row and
column. -/
theorem matrixConversionsUndoEachOther : Obligations.MatrixConversionsUndoEachOther :=
  ⟨entry_toMatrix, get_fromMatrix, fromMatrix_toMatrix, toMatrix_fromMatrix⟩

end Sys2Proof.Machine
end

section
/-! PROOFS. Reads of the ROM windows (10_state.md R36): the address map sends each window to its table, and a read of a
table entry is never a draw and never a fault. -/

namespace Sys2Proof.Machine

/-- A read that is neither a draw (70_reset_and_hazards.md R245) nor a read of STATUS gives the byte of its place, in
every state. -/
theorem hostRead_of_not_drawn {a : Addr} {p : Place} (s : State) (hplace : place a = p)
    (hdrawn : drawnWhileBusy p = false) (hstatus : p ≠ .status) : hostRead a s = .ok (placeValue s p, s) := by
  simp [hostRead, State.peek, hplace, hdrawn, hstatus]

/-- The S-box window is the 256 addresses from 0x100, the table index in the low byte (20_memory.md R61). -/
theorem place_sbox (v : Byte) : place (0x100 + v.setWidth 12) = .sbox v := by
  have haddr : (0x100 + v.setWidth 12 : Addr).toNat = 0x100 + v.toNat := by bv_omega
  have hlow : (0x100 + v.setWidth 12 : Addr).extractLsb' 0 8 = v := by
    apply BitVec.eq_of_toNat_eq
    rw [BitVec.extractLsb'_toNat, haddr]
    omega
  simp (disch := omega) only [place, haddr, hlow, if_neg, if_pos]

/-- The RCON window is the 11 addresses from 0x200 (20_memory.md R61). -/
theorem place_rcon (i : Fin 11) : place (0x200 + BitVec.ofNat 12 i.val) = .rcon i := by
  have haddr : (0x200 + BitVec.ofNat 12 i.val : Addr).toNat = 0x200 + i.val := by bv_omega
  simp (disch := omega) only [place, haddr, if_neg, if_pos, dif_pos, Nat.add_sub_cancel_left]

theorem hostRead_sbox (s : State) (v : Byte) : hostRead (0x100 + v.setWidth 12) s = .ok (sbox v, s) :=
  hostRead_of_not_drawn s (place_sbox v) rfl nofun

theorem hostRead_rcon (s : State) (i : Fin 11) : hostRead (0x200 + BitVec.ofNat 12 i.val) s = .ok (rcon i, s) :=
  hostRead_of_not_drawn s (place_rcon i) rfl nofun

/-- Settles O3: the two windows have places of their own, which busy reads do not draw. -/
theorem romReadsGiveTheTables : Obligations.RomReadsGiveTheTables :=
  fun s => ⟨hostRead_sbox s, hostRead_rcon s⟩

end Sys2Proof.Machine
end

section
/-! PROOFS. Host reads of the trace RAM (20_memory.md R63): the address map sends entry `k` at offset `off` to its place,
and the two high bits of an offset select the header, the S window, the K window or the reserved tail. -/

namespace Sys2Proof.Machine

/-- A read while idle gives the byte of its place, whatever a busy read of it would give (20_memory.md R61). -/
theorem hostRead_of_idle {a : Addr} {p : Place} {s : State} (hidle : s.isBusy = false) (hplace : place a = p)
    (hstatus : p ≠ .status) : hostRead a s = .ok (placeValue s p, s) := by
  simp [hostRead, State.peek, hidle, hplace, hstatus]

/-- Entry `k` has the 64 addresses from `0x400 + 64k` (20_memory.md R63). -/
theorem place_trace (k : Fin 42) {off : Nat} (hoff : off < 64) :
    place (BitVec.ofNat 12 (0x400 + 64 * k.val + off)) = .trace k (BitVec.ofNat 6 off) := by
  have haddr : (BitVec.ofNat 12 (0x400 + 64 * k.val + off)).toNat = 0x400 + 64 * k.val + off := by
    rw [BitVec.toNat_ofNat]
    omega
  have hentry : (0x400 + 64 * k.val + off - 0x400) / 64 = k.val := by omega
  have hlow : (BitVec.ofNat 12 (0x400 + 64 * k.val + off)).extractLsb' 0 6 = BitVec.ofNat 6 off := by
    apply BitVec.eq_of_toNat_eq
    rw [BitVec.extractLsb'_toNat, haddr, BitVec.toNat_ofNat]
    omega
  simp (disch := omega) only [place, haddr, hentry, hlow, if_neg, Fin.is_lt, dite_true]

theorem hostRead_trace {s : State} (hidle : s.isBusy = false) (k : Fin 42) {off : Nat} (hoff : off < 64) :
    hostRead (BitVec.ofNat 12 (0x400 + 64 * k.val + off)) s =
      .ok (traceEntryByte (s.trace.get k) (BitVec.ofNat 6 off), s) :=
  hostRead_of_idle hidle (place_trace k hoff) nofun

/-- The row and column of a window offset undo `4r + c` (20_memory.md R64). -/
theorem windowRow_rowMajor (r c : Fin 4) : windowRow (BitVec.ofNat 4 (4 * r.val + c.val)) = r := by
  revert r c; decide

theorem windowColumn_rowMajor (r c : Fin 4) : windowColumn (BitVec.ofNat 4 (4 * r.val + c.val)) = c := by
  revert r c; decide

/-- The low four bits of an offset are its place in its quarter of the entry. -/
theorem traceOffset_low (q i : Nat) : (BitVec.ofNat 6 (16 * q + i)).extractLsb' 0 4 = BitVec.ofNat 4 i := by
  apply BitVec.eq_of_toNat_eq
  rw [BitVec.extractLsb'_toNat, BitVec.toNat_ofNat, BitVec.toNat_ofNat]
  omega

/-- The high two bits of an offset are the number of its quarter of the entry. -/
theorem traceOffset_high {q i : Nat} (hq : q < 4) (hi : i < 16) :
    ((BitVec.ofNat 6 (16 * q + i)).extractLsb' 4 2).toNat = q := by
  rw [BitVec.extractLsb'_toNat, BitVec.toNat_ofNat]
  omega

theorem traceEntryByte_sWindow (e : TraceEntry) (r c : Fin 4) :
    traceEntryByte e (BitVec.ofNat 6 (0x10 + (4 * r.val + c.val))) = entry e.s r c := by
  have hhigh := traceOffset_high (q := 1) (i := 4 * r.val + c.val) (by omega) (by omega)
  have hlow := traceOffset_low 1 (4 * r.val + c.val)
  simp only [traceEntryByte, hhigh, hlow, windowRow_rowMajor, windowColumn_rowMajor]

theorem traceEntryByte_kWindow (e : TraceEntry) (r c : Fin 4) :
    traceEntryByte e (BitVec.ofNat 6 (0x20 + (4 * r.val + c.val))) = entry e.k r c := by
  have hhigh := traceOffset_high (q := 2) (i := 4 * r.val + c.val) (by omega) (by omega)
  have hlow := traceOffset_low 2 (4 * r.val + c.val)
  simp only [traceEntryByte, hhigh, hlow, windowRow_rowMajor, windowColumn_rowMajor]

/-- An offset that no storage stands behind reads 0x00 (20_memory.md R63). -/
theorem traceEntryByte_of_not_ramBacked (e : TraceEntry) {off : BitVec 6} (h : ramBackedOffset off = false) :
    traceEntryByte e off = 0x00 := by
  have hhigh : (off.extractLsb' 4 2).toNat = off.toNat / 16 := by
    rw [BitVec.extractLsb'_toNat]
    omega
  have hlow : (off.extractLsb' 0 4).toNat = off.toNat % 16 := by
    rw [BitVec.extractLsb'_toNat]
    omega
  have hrange : (0x04 ≤ off.toNat ∧ off.toNat < 0x10) ∨ 0x30 ≤ off.toNat := by
    simp only [ramBackedOffset, Bool.or_eq_false_iff, Bool.and_eq_false_iff, decide_eq_false_iff_not] at h
    omega
  simp only [traceEntryByte, hhigh, hlow]
  split
  · split
    iterate 4 · omega
    · rfl
  · omega
  · omega
  · rfl

/-- The reserved offsets of an entry are 0x04 to 0x0F and 0x30 to 0x3F (20_memory.md R63). -/
theorem hostRead_trace_reserved {s : State} (hidle : s.isBusy = false) (k : Fin 42) {off : Nat}
    (hoff : (0x04 ≤ off ∧ off ≤ 0x0F) ∨ (0x30 ≤ off ∧ off ≤ 0x3F)) :
    hostRead (BitVec.ofNat 12 (0x400 + 64 * k.val + off)) s = .ok (0x00, s) := by
  have hbare : ramBackedOffset (BitVec.ofNat 6 off) = false := by
    simp only [ramBackedOffset, BitVec.toNat_ofNat, Bool.or_eq_false_iff, Bool.and_eq_false_iff,
      decide_eq_false_iff_not]
    omega
  rw [hostRead_trace hidle k (by omega), traceEntryByte_of_not_ramBacked _ hbare]

theorem hostRead_trace_sWindow {s : State} (hidle : s.isBusy = false) (k : Fin 42) (r c : Fin 4) :
    hostRead (BitVec.ofNat 12 (0x400 + 64 * k.val + 0x10 + 4 * r.val + c.val)) s =
      .ok (entry (s.trace.get k).s r c, s) := by
  rw [Nat.add_assoc (_ + 0x10), Nat.add_assoc (0x400 + 64 * k.val),
    hostRead_trace hidle k (by omega), traceEntryByte_sWindow]

theorem hostRead_trace_kWindow {s : State} (hidle : s.isBusy = false) (k : Fin 42) (r c : Fin 4) :
    hostRead (BitVec.ofNat 12 (0x400 + 64 * k.val + 0x20 + 4 * r.val + c.val)) s =
      .ok (entry (s.trace.get k).k r c, s) := by
  rw [Nat.add_assoc (_ + 0x20), Nat.add_assoc (0x400 + 64 * k.val),
    hostRead_trace hidle k (by omega), traceEntryByte_kWindow]

/-- Settles O5: an idle read of a trace address gives the byte of the entry at that offset, and the 64 offsets are the
header, the two row-major windows and the reserved ones. -/
theorem traceWindowReadsItsEntry : Obligations.TraceWindowReadsItsEntry := by
  intro s k hidle
  have header (off : Nat) (hoff : off < 64) := hostRead_trace hidle k hoff
  exact ⟨header 0 (by decide), header 1 (by decide), header 2 (by decide), header 3 (by decide),
    fun _ hlo hhi => hostRead_trace_reserved hidle k (.inl ⟨hlo, hhi⟩), hostRead_trace_sWindow hidle k,
    hostRead_trace_kWindow hidle k, fun _ hlo hhi => hostRead_trace_reserved hidle k (.inr ⟨hlo, hhi⟩)⟩

end Sys2Proof.Machine
end

section
/-! PROOFS. Host writes (20_memory.md R66; 70_reset_and_hazards.md R246): the address map puts the five places whose
writes have an effect at five addresses of the register page, so a write elsewhere is ignored. -/

namespace Sys2Proof.Machine

/-- The places whose "host write" column in 20_memory.md R61 is not "ignored". -/
def writablePlaces : List Place := [.cmd, .ptPort, .keyPort, .gfA, .gfB]

/-- The effects of a write are at the writable places alone. -/
theorem writePlace_of_not_writable {p : Place} (v : Byte) (s : State) (h : p ∉ writablePlaces) :
    writePlace v s p = s := by
  cases p <;> simp [writablePlaces, writePlace] at h ⊢

/-- Above the register page no place is writable. -/
theorem place_not_writable_of_le {a : Addr} (h : 0x010 ≤ a.toNat) : place a ∉ writablePlaces := by
  simp only [place, if_neg (Nat.not_lt.mpr h)]
  repeat' split
  all_goals simp [writablePlaces]

/-- The addresses of the writable places: CMD, the two ports, GF_A and GF_B (20_memory.md R61). -/
theorem writable_address {a : Addr} (h : place a ∈ writablePlaces) : a ∈ [0x001#12, 0x002, 0x003, 0x006, 0x007] := by
  have hpage : a.toNat < 0x010 := by
    by_contra hout
    exact place_not_writable_of_le (Nat.not_lt.mp hout) h
  have hlow : a = (a.extractLsb' 0 4).setWidth 12 := by
    apply BitVec.eq_of_toNat_eq
    rw [BitVec.toNat_setWidth, BitVec.extractLsb'_toNat]
    omega
  simp only [place, if_pos hpage] at h
  rw [hlow]
  generalize a.extractLsb' 0 4 = low at h ⊢
  revert low
  decide

theorem hostWrite_of_busy {s : State} (a : Addr) (v : Byte) (h : s.isBusy = true) :
    hostWrite a v s = { s with errBusy := true } := by
  simp [hostWrite, h, dropWrite]

theorem hostWrite_elsewhere {s : State} {a : Addr} (v : Byte) (hidle : s.isBusy = false)
    (ha : a ∉ [0x001#12, 0x002, 0x003, 0x006, 0x007]) : hostWrite a v s = s := by
  simp only [hostWrite, hidle, Bool.false_eq_true, if_false]
  exact writePlace_of_not_writable v s (mt writable_address ha)

/-- No host write records an outcome code: that is the completion step's (60_exceptions.md R210). -/
@[simp] theorem hostWrite_lastErr (a : Addr) (v : Byte) (s : State) : (hostWrite a v s).lastErr = s.lastErr := by
  obtain ⟨-, h⟩ | ⟨-, -, h⟩ | ⟨-, -, h⟩ | ⟨-, -, h⟩ | ⟨-, -, h⟩ | ⟨-, -, h⟩ | ⟨-, h⟩ := hostWrite_cases a v s <;>
    simp [h]

/-- Settles O9: the writable places have no other address, a busy write is dropped, and no case of a write touches
LAST_ERR. -/
theorem writesElsewhereAreIgnored : Obligations.WritesElsewhereAreIgnored :=
  fun s a v => ⟨hostWrite_elsewhere v, hostWrite_of_busy a v, hostWrite_lastErr a v s⟩

end Sys2Proof.Machine
end

section
/-! PROOFS. The illegal command bytes (30_encoding.md R91, R94): the two fields of a byte are its two hexadecimal digits,
so the decoder's refusals are R94's items; and what an accepted illegal byte does. -/

namespace Sys2Proof.Machine

theorem commandOp_toNat (c : Byte) : (commandOp c).toNat = c.toNat / 16 := by
  rw [commandOp, BitVec.extractLsb'_toNat]
  omega

theorem commandArg_toNat (c : Byte) : (commandArg c).toNat = c.toNat % 16 := by
  simp [commandArg, BitVec.extractLsb'_toNat]

theorem commandArg_eq_zero_iff (c : Byte) : commandArg c = 0 ↔ c.toNat % 16 = 0 := by
  rw [← commandArg_toNat]
  exact BitVec.toNat_eq

/-- The opcodes that take no argument refuse a second digit other than 0 (30_encoding.md R94 item 2). -/
theorem withoutArgument_refuses_iff (c : Byte) (i : Instr) :
    (withoutArgument c i).toOption = none ↔ c.toNat % 16 ≠ 0 := by
  have harg := commandArg_eq_zero_iff c
  rw [withoutArgument]
  split
  · next h => simp [Except.toOption, harg.mp h]
  · next h => simpa [Except.toOption] using mt harg.mpr h

/-- The illegal bytes are the three items of 30_encoding.md R94. The cases are the opcodes: 0x0..0x6, ARK, 0x8, 0x9, and
the reserved ones. -/
theorem legalCommand_eq_none_iff (c : Byte) : legalCommand c = none ↔
    (10 ≤ c.toNat / 16) ∨ (c.toNat % 16 ≠ 0 ∧ c.toNat / 16 ≤ 9 ∧ c.toNat / 16 ≠ 7) ∨
      (c.toNat / 16 = 7 ∧ 11 ≤ c.toNat % 16) := by
  have hop := commandOp_toNat c
  simp only [legalCommand, decodeByte, commandArg_toNat]
  split
  case h_8 =>
    split
    · simp only [Except.toOption, reduceCtorEq, false_iff]
      omega
    · simp only [Except.toOption, true_iff]
      omega
  case h_11 =>
    simp only [Except.toOption, true_iff, imp_false] at *
    omega
  all_goals
    rw [withoutArgument_refuses_iff]
    omega

/-- The acceptance of an illegal byte stores it in CMD and makes the engine busy with no command pending; SIM_VALID,
TRACE_COUNT and ERR_BUSY stay (30_encoding.md R94; log 1, log 2). -/
theorem beginCommand_of_illegal {c : Byte} (h : legalCommand c = none) (left : Nat) (s : State) :
    beginCommand c left s = { s with cmd := c, phase := .busy none left } := by
  simp [beginCommand, h, invalidatesSimulation, clearsErrBusy]

/-- With nothing legal pending and no host turn left, the step records ERR_CMD (60_exceptions.md R213). -/
theorem step_of_illegal_pending {s : State} (h : s.phase = .busy none 0) : step s = .next (raiseCmdError errCmd s) := by
  simp [step, turn, h, completeCommand]

theorem step_beginCommand_of_illegal {c : Byte} (h : legalCommand c = none) (s : State) :
    step (beginCommand c 0 s) = .next { s with cmd := c, lastErr := 2, phase := .idle } := by
  rw [beginCommand_of_illegal h, step_of_illegal_pending rfl]
  rfl

/-- Settles O15: the illegal bytes by the two digits of a byte, their acceptance, and their completion. -/
theorem illegalBytesRecordErrCmdOnly : Obligations.IllegalBytesRecordErrCmdOnly :=
  ⟨legalCommand_eq_none_iff, fun _ left s h => ⟨beginCommand_of_illegal h left s, step_beginCommand_of_illegal h s⟩⟩

end Sys2Proof.Machine
end

section
/-! PROOFS. The assembler (30_encoding.md R97): `ARK n` is the opcode 0x7 and the digit `n`, and nothing else takes an
operand. -/

namespace Sys2Proof.Machine

/-- The digit of ARK does not reach the opcode's bits, so joining the two fields is adding them. -/
theorem encodeByte_ark : ∀ n : BitVec 4, encodeByte (.ark n) = BitVec.ofNat 8 (0x70 + n.toNat) := by
  decide

theorem assemble_ark_of_le {n : Nat} (h : n ≤ 10) : assemble .ARK (some n) = some (BitVec.ofNat 8 (0x70 + n)) := by
  have hn : (BitVec.ofNat 4 n).toNat = n := Nat.mod_eq_of_lt (by omega)
  simp only [assemble, mnemonicCommand, if_pos h, Option.map_some, encodeByte_ark, hn]

theorem assemble_ark_of_gt {n : Nat} (h : 10 < n) : assemble .ARK (some n) = none := by
  simp [assemble, mnemonicCommand, Nat.not_le.mpr h]

theorem assemble_operand_of_ne_ark {m : Mnemonic} (n : Nat) (h : m ≠ .ARK) : assemble m (some n) = none := by
  cases m with
  | ARK => exact absurd rfl h
  | _ => rfl

/-- Settles O16: the nine plain mnemonics by evaluation, ARK on both sides of its bound, and an operand elsewhere. -/
theorem assemblerFollowsTheMnemonics : Obligations.AssemblerFollowsTheMnemonics :=
  ⟨rfl, rfl, rfl, rfl, rfl, rfl, rfl, rfl, rfl, fun _ => assemble_ark_of_le, fun _ => assemble_ark_of_gt,
    fun _ n => assemble_operand_of_ne_ark n⟩

end Sys2Proof.Machine
end

section
/-! PROOFS. Multiplication in GF(2⁸) (40_primitives.md R110, R111): the product is linear over XOR in each factor, so a
law of two factors holds once it holds for single-bit bytes. -/

namespace Sys2Proof.Machine

/-- What a bit selects is linear in the bit. -/
theorem select_xor (p q : Bool) (a : Byte) :
    (if p ^^ q then a else 0#8) = (if p then a else 0#8) ^^^ (if q then a else 0#8) := by
  cases p <;> cases q <;> simp

/-- `shiftReduce` in R111's form: the shifted byte, and 0x1B when bit 7 is set. -/
theorem shiftReduce_eq : ∀ a : Byte, shiftReduce a = (a <<< 1) ^^^ (if a.getLsbD 7 then 0x1B else 0#8) := by
  decide

theorem shiftReduce_xor (a b : Byte) : shiftReduce (a ^^^ b) = shiftReduce a ^^^ shiftReduce b := by
  simp only [shiftReduce_eq, BitVec.shiftLeft_xor_distrib, BitVec.getLsbD_xor, select_xor]
  ac_rfl

theorem lowBit_eq_one_iff : ∀ b : Byte, b &&& 0x01 = 1 ↔ b.getLsbD 0 := by decide

/-- One turn of the loop on the accumulator alone. -/
theorem gmulLoop_succ (n : Nat) (p a b : Byte) :
    gmulLoop (n + 1) p a b = gmulLoop n (p ^^^ if b.getLsbD 0 then a else 0#8) (shiftReduce a) (b >>> 1) := by
  simp only [gmulLoop, lowBit_eq_one_iff]
  split <;> simp

/-- The loop only XORs into its accumulator, so it may start from 0 (R110). -/
theorem gmulLoop_accumulator (n : Nat) (p a b : Byte) : gmulLoop n p a b = p ^^^ gmulLoop n 0#8 a b := by
  induction n generalizing p a b with
  | zero => simp [gmulLoop]
  | succ n ih =>
    rw [gmulLoop_succ, gmulLoop_succ n 0#8, ih, ih (0#8 ^^^ _), BitVec.zero_xor, BitVec.xor_assoc]

/-- The loop from 0 is a sum: the term that bit 0 selects, and the product of what remains. -/
theorem gmulLoop_zero_succ (n : Nat) (a b : Byte) :
    gmulLoop (n + 1) 0#8 a b = (if b.getLsbD 0 then a else 0#8) ^^^ gmulLoop n 0#8 (shiftReduce a) (b >>> 1) := by
  rw [gmulLoop_succ, gmulLoop_accumulator, BitVec.zero_xor]

theorem gmulLoop_xor_right (n : Nat) (a b c : Byte) :
    gmulLoop n 0#8 a (b ^^^ c) = gmulLoop n 0#8 a b ^^^ gmulLoop n 0#8 a c := by
  induction n generalizing a b c with
  | zero => simp [gmulLoop]
  | succ n ih =>
    simp only [gmulLoop_zero_succ, BitVec.getLsbD_xor, select_xor, BitVec.ushiftRight_xor_distrib, ih]
    ac_rfl

theorem gmulLoop_xor_left (n : Nat) (a b c : Byte) :
    gmulLoop n 0#8 (a ^^^ b) c = gmulLoop n 0#8 a c ^^^ gmulLoop n 0#8 b c := by
  induction n generalizing a b c with
  | zero => simp [gmulLoop]
  | succ n ih =>
    simp only [gmulLoop_zero_succ, shiftReduce_xor, ih]
    split
    · ac_rfl
    · simp

/-- The product distributes over XOR, the addition of GF(2⁸), on the right. -/
theorem gmul_xor_right (a b c : Byte) : gmul a (b ^^^ c) = gmul a b ^^^ gmul a c := gmulLoop_xor_right 8 a b c

/-- The product distributes over XOR, the addition of GF(2⁸), on the left. -/
theorem gmul_xor_left (a b c : Byte) : gmul (a ^^^ b) c = gmul a c ^^^ gmul b c := gmulLoop_xor_left 8 a b c

/-- A byte is the XOR of its bits. -/
theorem byte_eq_xor_bits : ∀ b : Byte,
    b = (List.finRange 8).foldr (fun i sum => (if b.getLsbD i then BitVec.twoPow 8 i else 0#8) ^^^ sum) 0#8 := by
  decide

/-- Induction on a byte: what XOR keeps holds of every byte once it holds of 0 and of the single bits. -/
theorem byte_xor_induction {P : Byte → Prop} (zero : P 0#8) (bit : ∀ i : Fin 8, P (BitVec.twoPow 8 i))
    (xor : ∀ a b, P a → P b → P (a ^^^ b)) (b : Byte) : P b := by
  rw [byte_eq_xor_bits b]
  induction List.finRange 8 with
  | nil => exact zero
  | cons i is ih =>
    refine xor _ _ ?_ ih
    split
    · exact bit i
    · exact zero

@[simp] theorem gmul_zero_right (a : Byte) : gmul a 0#8 = 0#8 := rfl

@[simp] theorem gmul_zero_left (b : Byte) : gmul 0#8 b = 0#8 := by
  have h := gmul_xor_left 0#8 0#8 b
  rwa [BitVec.xor_self, BitVec.xor_self] at h

theorem gmul_comm_bits : ∀ i j : Fin 8,
    gmul (BitVec.twoPow 8 i) (BitVec.twoPow 8 j) = gmul (BitVec.twoPow 8 j) (BitVec.twoPow 8 i) := by
  decide

/-- R111: both sides are linear in each factor, so single bits decide. -/
theorem gmul_comm (a b : Byte) : gmul a b = gmul b a := by
  induction b using byte_xor_induction with
  | zero => simp
  | xor b c hb hc => rw [gmul_xor_right, gmul_xor_left, hb, hc]
  | bit j =>
    induction a using byte_xor_induction with
    | zero => simp
    | xor a c ha hc => rw [gmul_xor_left, gmul_xor_right, ha, hc]
    | bit i => exact gmul_comm_bits i j

@[simp] theorem gmul_one_right (a : Byte) : gmul a 1#8 = a := by
  calc gmul a 1#8 = 0#8 ^^^ a := rfl
    _ = a := BitVec.zero_xor

@[simp] theorem gmul_one_left (b : Byte) : gmul 1#8 b = b := by rw [gmul_comm, gmul_one_right]

/-- Multiplication by 2 is one step of the multiplicand. -/
theorem gmul_two_left (a : Byte) : gmul 0x02 a = shiftReduce a := by
  calc gmul 0x02 a = gmul a 0x02 := gmul_comm 0x02 a
    _ = 0#8 ^^^ shiftReduce a := rfl
    _ = shiftReduce a := BitVec.zero_xor

/-- Multiplication by 3 = 2 XOR 1. -/
theorem gmul_three_left (a : Byte) : gmul 0x03 a = gmul 0x02 a ^^^ a := by
  rw [show (0x03 : Byte) = 0x02 ^^^ 1#8 from rfl, gmul_xor_left, gmul_one_left]

/-- Settles O36: commutativity by linearity in both factors, and with it each law from the side the loop computes. -/
theorem gmulHasItsListedProperties : Obligations.GmulHasItsListedProperties :=
  ⟨gmul_one_right, gmul_zero_left, gmul_comm, gmul_zero_right, gmul_one_left,
    fun a => (gmul_two_left a).trans (shiftReduce_eq a), gmul_three_left⟩

/-- GMUL always succeeds, with the product in GF_RES (R115). -/
theorem exec_gmul (s : State) : exec .gmul s = .next (succeed { s with gfRes := gmul s.gfA s.gfB }) := rfl

/-- Settles O31: the completion that succeeds records the code 0 and ends the busy phase. -/
theorem gmulWritesTheProduct : Obligations.GmulWritesTheProduct := exec_gmul

end Sys2Proof.Machine
end

section
/-! PROOFS. The key schedule (41_key_schedule.md R130 to R133): byte `4n + r` of the expanded key is byte `r` of schedule
word `n`, so its bytes and its words obey the recurrence of the schedule words; and EXPAND writes that key. -/

namespace Sys2Proof.Machine

/-! ### The bytes of a word -/

@[simp] theorem wordByte_xorWord (u v : KeyWord) (r : Fin 4) :
    wordByte (xorWord u v) r = wordByte u r ^^^ wordByte v r := by
  fin_cases r <;> rfl

/-- Rotating reads the next byte; addition in `Fin 4` is modulo 4. -/
@[simp] theorem wordByte_rotWord (w : KeyWord) (r : Fin 4) : wordByte (rotWord w) r = wordByte w (r + 1) := by
  fin_cases r <;> rfl

@[simp] theorem wordByte_subWord (w : KeyWord) (r : Fin 4) : wordByte (subWord w) r = sbox (wordByte w r) := by
  fin_cases r <;> rfl

/-- A round constant is XORed into byte 0 of its word alone. -/
theorem wordByte_roundConstant (b : Byte) (r : Fin 4) :
    wordByte ⟨b, 0, 0, 0⟩ r = if r.val = 0 then b else 0x00 := by
  fin_cases r <;> rfl

/-- Byte `r` of word `j` of the key is the key's byte at row `r`, column `j` (00_scope.md R10). -/
@[simp] theorem wordByte_cipherKeyWord (key : Block) (j r : Fin 4) :
    wordByte (cipherKeyWord key j) r = key.get (flatIndex r j) := by
  fin_cases r <;> simp [wordByte, cipherKeyWord, flatIndex, Nat.add_comm]

@[simp] theorem wordByte_ekWord (ek : ExpandedKey) (j : Fin 44) (r : Fin 4) :
    wordByte (ekWord ek j) r = ek.get ⟨4 * j.val + r.val, by omega⟩ := by
  fin_cases r <;> rfl

/-- Two words with the same four bytes are equal. -/
theorem keyWord_ext {u v : KeyWord} (h : ∀ r, wordByte u r = wordByte v r) : u = v := by
  cases u
  cases v
  rw [KeyWord.mk.injEq]
  exact ⟨h 0, h 1, h 2, h 3⟩

/-! ### The words of the schedule -/

/-- The schedule starts with the words of the key. -/
theorem scheduleWord_of_lt_four (key : Block) (j : Fin 4) : scheduleWord key j.val = cipherKeyWord key j := by
  fin_cases j <;> rfl

/-- The recurrence of R133, for word `j` itself. -/
theorem scheduleWord_of_four_le (key : Block) {j : Nat} (h : 4 ≤ j) :
    scheduleWord key j = xorWord (scheduleWord key (j - 4)) (scheduleTransform j (scheduleWord key (j - 1))) := by
  obtain ⟨i, rfl⟩ := Nat.exists_eq_add_of_le' h
  exact scheduleWord_add_four key i

/-- Within the RCON table the reduction of a boundary's number to an index changes nothing. -/
theorem boundaryConstant_eq_rcon {n : Nat} (h : n < 11) : boundaryConstant n = rcon ⟨n, h⟩ :=
  congrArg rcon (Fin.ext (Nat.mod_eq_of_lt h))

/-- The transform of R133 for the words of the schedule, its round constant an entry of the RCON table. -/
theorem scheduleTransform_eq {j : Nat} (hj : j < 44) (w : KeyWord) :
    scheduleTransform j w =
      if j % 4 = 0 then xorWord (subWord (rotWord w)) ⟨rcon ⟨j / 4, by omega⟩, 0, 0, 0⟩ else w := by
  rw [scheduleTransform, boundaryConstant_eq_rcon]

/-! ### The bytes of the expanded key -/

/-- Byte `4n + r` of the expanded key is byte `r` of schedule word `n`. -/
theorem expandKey_get (key : Block) {i : Fin 176} {n : Nat} {r : Fin 4} (h : i.val = 4 * n + r.val) :
    (expandKey key).get i = wordByte (scheduleWord key n) r := by
  have hword : i.val / 4 = n := by omega
  have hbyte : i.val % 4 = r.val := by omega
  simp only [expandKey, get_ofFn, hword, hbyte]

theorem expandKey_get_key (key : Block) (i : Fin 16) : (expandKey key).get ⟨i.val, by omega⟩ = key.get i := by
  have hi : i.val = 4 * (i.val / 4) + i.val % 4 := (Nat.div_add_mod _ _).symm
  rw [expandKey_get key (r := ⟨i.val % 4, by omega⟩) hi, scheduleWord_of_lt_four key ⟨i.val / 4, by omega⟩,
    wordByte_cipherKeyWord, flatIndex_mod_div]

/-- The word at boundary `k` is word `4k` of the schedule; the rotation makes byte `j` read byte `j + 1` of the word
before it. -/
theorem expandKey_get_boundary (key : Block) (k : Fin 11) (j : Fin 4) (hk : 1 ≤ k.val) :
    (expandKey key).get ⟨16 * k.val + j.val, by omega⟩ =
      (expandKey key).get ⟨16 * k.val - 16 + j.val, by omega⟩ ^^^
        (sbox ((expandKey key).get ⟨16 * k.val - 4 + (j.val + 1) % 4, by omega⟩) ^^^
          if j.val = 0 then rcon k else 0x00) := by
  have hrot : (j + 1).val = (j.val + 1) % 4 := Fin.val_add j 1
  have hconstant : 4 * k.val / 4 = k.val := by omega
  rw [expandKey_get key (n := 4 * k.val) (r := j) (by dsimp only; omega),
    expandKey_get key (n := 4 * k.val - 4) (r := j) (by dsimp only; omega),
    expandKey_get key (n := 4 * k.val - 1) (r := j + 1) (by dsimp only; omega),
    scheduleWord_of_four_le key (by omega), scheduleTransform_eq (by omega), if_pos (by omega)]
  simp only [wordByte_xorWord, wordByte_subWord, wordByte_rotWord, wordByte_roundConstant, hconstant]

/-- Away from the boundaries a word is the XOR of two earlier ones. -/
theorem expandKey_get_elsewhere (key : Block) (i : Fin 176) (hi : 16 ≤ i.val) (h : 4 ≤ i.val % 16) :
    (expandKey key).get i =
      (expandKey key).get ⟨i.val - 16, by omega⟩ ^^^ (expandKey key).get ⟨i.val - 4, by omega⟩ := by
  rw [expandKey_get key (n := i.val / 4) (r := ⟨i.val % 4, by omega⟩) (by dsimp only; omega),
    expandKey_get key (n := i.val / 4 - 4) (r := ⟨i.val % 4, by omega⟩) (by dsimp only; omega),
    expandKey_get key (n := i.val / 4 - 1) (r := ⟨i.val % 4, by omega⟩) (by dsimp only; omega),
    scheduleWord_of_four_le key (by omega), scheduleTransform_eq (by omega), if_neg (by omega),
    wordByte_xorWord]

/-- Settles O40: the bytes of the key, of the boundary words, and of the words between them, each from the schedule
word it stands in. -/
theorem expandedKeyAppliesEachBoundaryOnce : Obligations.ExpandedKeyAppliesEachBoundaryOnce :=
  fun key => ⟨expandKey_get_key key, expandKey_get_boundary key, expandKey_get_elsewhere key⟩

/-! ### The words of the expanded key -/

theorem ekWord_expandKey (key : Block) (j : Fin 44) : ekWord (expandKey key) j = scheduleWord key j.val := by
  apply keyWord_ext
  intro r
  rw [wordByte_ekWord, expandKey_get key rfl]

/-- Column `c` of `RK(n)` is word `4n + c` (00_scope.md R11), for any contents of EK. -/
theorem entry_roundKey (ek : ExpandedKey) (n : Round) (r c : Fin 4) :
    entry (roundKey ek n) r c = wordByte (ekWord ek ⟨4 * n.val + c.val, by omega⟩) r := by
  have hindex : 16 * n.val + (flatIndex r c).val = 4 * (4 * n.val + c.val) + r.val := by
    simp only [flatIndex]
    omega
  simp only [roundKey, entry_toMatrix, roundKeyBytes, get_ofFn, wordByte_ekWord, hindex]

theorem ekWord_expandKey_key (key : Block) (j : Fin 4) :
    ekWord (expandKey key) ⟨j.val, by omega⟩ = cipherKeyWord key j := by
  rw [ekWord_expandKey, scheduleWord_of_lt_four]

theorem ekWord_expandKey_of_four_le (key : Block) (j : Fin 44) (hj : 4 ≤ j.val) :
    ekWord (expandKey key) j = xorWord (ekWord (expandKey key) ⟨j.val - 4, by omega⟩)
      (scheduleTransform j.val (ekWord (expandKey key) ⟨j.val - 1, by omega⟩)) := by
  simp only [ekWord_expandKey]
  exact scheduleWord_of_four_le key hj

/-- Settles O41: the words of the expanded key are the schedule's, and a round key's columns are its words. -/
theorem expandedKeyObeysTheWordRecurrence : Obligations.ExpandedKeyObeysTheWordRecurrence := by
  intro key
  refine ⟨ekWord_expandKey_key key, fun j hj => ?_, entry_roundKey (expandKey key)⟩
  rw [ekWord_expandKey_of_four_le key j hj, scheduleTransform_eq j.isLt]
  rfl

/-! ### The command -/

theorem exec_expand_of_length {s : State} (h : s.keyLen = 16) :
    exec .expand s = .next (succeed { s with ek := expandKey s.key, ekValid := true }) :=
  if_pos h

theorem exec_expand_of_not_length {s : State} (h : s.keyLen ≠ 16) :
    exec .expand s = .next (raiseCmdError errLen s) :=
  if_neg h

/-- Settles O26: the two branches of R131, with what success and ERR_LEN record. -/
theorem expandWritesTheExpandedKey : Obligations.ExpandWritesTheExpandedKey :=
  fun _ => ⟨exec_expand_of_length, exec_expand_of_not_length⟩

end Sys2Proof.Machine
end

section
/-! PROOFS. The single-step commands (42_transforms.md R140 to R148): what each command's Exec gives, in terms of the
transformation it applies to STATE; the bytes of the result are the transformation's own. -/

namespace Sys2Proof.Machine

/-! ### LOAD -/

theorem exec_load_of_length {s : State} (h : s.ptLen = 16) :
    exec .load s = .next (succeed { s with stateMatrix := toMatrix s.pt }) :=
  if_pos h

theorem exec_load_of_not_length {s : State} (h : s.ptLen ≠ 16) : exec .load s = .next (raiseCmdError errLen s) :=
  if_neg h

/-- Settles O25: the two branches of R144; the bytes are those of the flat plaintext's matrix (00_scope.md R10). -/
theorem loadConvertsThePlaintext : Obligations.LoadConvertsThePlaintext :=
  fun s => ⟨fun h => ⟨toMatrix s.pt, exec_load_of_length h, entry_toMatrix s.pt⟩, exec_load_of_not_length⟩

/-! ### SUBB, SHFR and MIXC -/

theorem exec_subb (s : State) : exec .subb s = .next (succeed { s with stateMatrix := subBytes s.stateMatrix }) := rfl

theorem exec_shfr (s : State) : exec .shfr s = .next (succeed { s with stateMatrix := shiftRows s.stateMatrix }) := rfl

theorem exec_mixc (s : State) : exec .mixc s = .next (succeed { s with stateMatrix := mixColumns s.stateMatrix }) := rfl

/-- Settles O27: SUBB always succeeds, with SubBytes of the old STATE. -/
theorem subbSubstitutesEveryByte : Obligations.SubbSubstitutesEveryByte :=
  fun s => ⟨subBytes s.stateMatrix, exec_subb s, entry_subBytes s.stateMatrix⟩

/-- Settles O28: SHFR always succeeds, with ShiftRows of the old STATE; a sum in `Fin 4` is taken modulo 4. -/
theorem shfrRotatesEachRow : Obligations.ShfrRotatesEachRow :=
  fun s => ⟨shiftRows s.stateMatrix, exec_shfr s, entry_shiftRows s.stateMatrix⟩

/-- Settles O29: MIXC always succeeds, with MixColumns of the old STATE, whose four rows are the four formulas. -/
theorem mixcMultipliesEachColumn : Obligations.MixcMultipliesEachColumn := by
  intro s
  have row (r c : Fin 4) := entry_mixColumns s.stateMatrix r c
  exact ⟨mixColumns s.stateMatrix, exec_mixc s, fun c => ⟨row 0 c, row 1 c, row 2 c, row 3 c⟩⟩

/-! ### ARK -/

/-- A round number above 10 is rejected before EK_VALID is looked at (60_exceptions.md R215). -/
theorem exec_ark_of_round_gt {n : BitVec 4} (s : State) (h : 10 < n.toNat) :
    exec (.ark n) s = .next (raiseCmdError errCmd s) :=
  dif_neg (Nat.not_lt.mpr h)

theorem exec_ark_of_valid {n : BitVec 4} {s : State} (hround : n.toNat < 11) (hvalid : s.ekValid = true) :
    exec (.ark n) s = .next (succeed { s with
      stateMatrix := addRoundKey s.stateMatrix (roundKey s.ek ⟨n.toNat, hround⟩) }) :=
  (dif_pos hround).trans (if_pos hvalid)

theorem exec_ark_of_not_valid {n : BitVec 4} {s : State} (hround : n.toNat < 11) (hinvalid : s.ekValid = false) :
    exec (.ark n) s = .next (raiseCmdError errSeq s) :=
  (dif_pos hround).trans (if_neg (Bool.eq_false_iff.mp hinvalid))

/-- The byte of `RK(n)` at a row and column, at its place in EK (00_scope.md R10, R11). -/
theorem entry_roundKey_get (ek : ExpandedKey) (n : Round) (r c : Fin 4) :
    entry (roundKey ek n) r c = ek.get ⟨16 * n.val + r.val + 4 * c.val, by omega⟩ := by
  simp only [roundKey, entry_toMatrix, roundKeyBytes, get_ofFn, flatIndex, Nat.add_assoc]

/-- Settles O30: the round number is checked first, then EK_VALID, and what succeeds adds the round key's bytes. -/
theorem arkXorsTheRoundKey : Obligations.ArkXorsTheRoundKey := by
  intro s n
  refine ⟨fun hround hvalid => ?_, fun hround => exec_ark_of_not_valid (Nat.lt_succ_of_le hround),
    exec_ark_of_round_gt s⟩
  refine ⟨_, exec_ark_of_valid (Nat.lt_succ_of_le hround) hvalid, fun r c => ?_⟩
  rw [entry_addRoundKey, entry_roundKey_get]

end Sys2Proof.Machine
end

section
/-! PROOFS. The sequencer and RUN (43_sequencer.md R170 to R177): the schedule is a fixed list of steps, so its closed
form is a finite fact; an entry's header and round key are those of its step, and its S window is the working matrix
after that step. -/

namespace Sys2Proof.Machine

/-! ### The schedule and its entries -/

theorem schedule_round : ∀ (k : Nat) (h : k < schedule.length), schedule[k].round.val = roundOfEntry k := by decide

theorem schedule_kind : ∀ (k : Nat) (h : k < schedule.length), stepKindCode schedule[k].kind = kindOfEntry k := by
  decide

/-- The kind code 4 is ADD_ROUND_KEY's, the one kind with a round key (10_state.md R34, R35). -/
theorem hasRoundKey_iff (kind : StepKind) : hasRoundKey kind = true ↔ stepKindCode kind = 4 := by
  cases kind <;> decide

/-- The byte of `RK(n)` at a row and column, by its index in EK alone. -/
theorem entry_roundKey_getD (ek : ExpandedKey) (n : Round) (r c : Fin 4) :
    entry (roundKey ek n) r c = ek.getD (16 * n.val + r.val + 4 * c.val) 0x00 := by
  rw [entry_roundKey_get]
  have hin : 16 * n.val + r.val + 4 * c.val < ek.toArray.size := by
    rw [Vector.size_toArray]
    omega
  exact (dif_pos hin).symm

theorem traceEntry_flags (ek : ExpandedKey) (k : Nat) (st : ScheduleStep) (m : StateMatrix) :
    (traceEntry ek k st m).flags = if stepKindCode st.kind = 4 then 1 else 0 := by
  simp only [traceEntry, hasRoundKey_iff]

theorem entry_traceEntry_k (ek : ExpandedKey) (k : Nat) (st : ScheduleStep) (m : StateMatrix) (r c : Fin 4) :
    entry (traceEntry ek k st m).k r c =
      if stepKindCode st.kind = 4 then ek.getD (16 * st.round.val + r.val + 4 * c.val) 0x00 else 0x00 := by
  simp only [traceEntry, hasRoundKey_iff]
  split
  · exact entry_roundKey_getD ek st.round r c
  · exact entry_zeroMatrix r c

section

variable (ek : ExpandedKey) (m : StateMatrix) (k : Fin 42)

theorem simulationTrace_stepIndex : ((simulationTrace ek m).get k).stepIndex = BitVec.ofNat 8 k.val := by
  rw [simulationTrace_get]
  rfl

theorem simulationTrace_round : ((simulationTrace ek m).get k).round = BitVec.ofNat 8 (roundOfEntry k.val) := by
  rw [simulationTrace_get, ← schedule_round]
  rfl

theorem simulationTrace_kind : ((simulationTrace ek m).get k).kind = kindOfEntry k.val := by
  rw [simulationTrace_get, ← schedule_kind]
  rfl

theorem simulationTrace_flags :
    ((simulationTrace ek m).get k).flags = if kindOfEntry k.val = 4 then 1 else 0 := by
  rw [simulationTrace_get, traceEntry_flags, schedule_kind]

theorem entry_simulationTrace_k (r c : Fin 4) :
    entry ((simulationTrace ek m).get k).k r c =
      if kindOfEntry k.val = 4 then ek.getD (16 * roundOfEntry k.val + r.val + 4 * c.val) 0x00 else 0x00 := by
  rw [simulationTrace_get, entry_traceEntry_k, schedule_kind, schedule_round]

/-- The S window of entry `k` is the working matrix after the steps 0 to `k`, however that list is written (R172). -/
theorem simulationTrace_s_of_take {steps : List ScheduleStep} (h : schedule.take (k.val + 1) = steps) :
    ((simulationTrace ek m).get k).s = matrixAfter ek steps m := by
  rw [simulationTrace_get, h]
  rfl

end

/-! ### The header bytes in the trace window -/

/-- The byte at offset `off` of entry `k`, the offset added to the base address first (20_memory.md R63). -/
theorem peek_trace (s : State) (k : Fin 42) {off : Nat} (hoff : off < 64) :
    s.peek (BitVec.ofNat 12 (0x400 + off + 64 * k.val)) = traceEntryByte (s.trace.get k) (BitVec.ofNat 6 off) := by
  rw [Nat.add_right_comm, State.peek, place_trace k hoff]
  rfl

/-- Settles O45: the columns of the schedule from the step of each entry, and the header bytes from the entry that a
trace address reads. -/
theorem traceFollowsTheSchedule : Obligations.TraceFollowsTheSchedule := by
  intro pt key k
  have hindex := simulationTrace_stepIndex (expandKey key) (toMatrix pt) k
  have hround := simulationTrace_round (expandKey key) (toMatrix pt) k
  have hkind := simulationTrace_kind (expandKey key) (toMatrix pt) k
  have hflags := simulationTrace_flags (expandKey key) (toMatrix pt) k
  refine ⟨⟨hindex, hround, hkind, hflags, entry_simulationTrace_k (expandKey key) (toMatrix pt) k⟩, fun s htrace => ?_⟩
  have hentry : s.trace.get k = (simulationTrace (expandKey key) (toMatrix pt)).get k := by rw [htrace]; rfl
  have header {off : Nat} (hoff : off < 64) := hentry ▸ peek_trace s k hoff
  exact ⟨(header (off := 0) (by decide)).trans hindex, (header (off := 1) (by decide)).trans hround,
    (header (off := 2) (by decide)).trans hkind, (header (off := 3) (by decide)).trans hflags⟩

/-! ### The last two entries -/

/-- The last entry holds the matrix that the whole schedule leaves. -/
theorem simulationTrace_s_last (ek : ExpandedKey) (m : StateMatrix) :
    ((simulationTrace ek m).get 41).s = matrixAfter ek schedule m :=
  simulationTrace_s_of_take ek m 41 rfl

/-- FINAL leaves the working matrix alone. -/
theorem matrixAfter_final (ek : ExpandedKey) (n : Round) (m : StateMatrix) :
    matrixAfter ek [⟨n, .final⟩] m = m := rfl

/-- FINAL, the last step, leaves the matrix of the step before it alone (R172). -/
theorem simulationTrace_s_forty (ek : ExpandedKey) (m : StateMatrix) :
    ((simulationTrace ek m).get 40).s = ((simulationTrace ek m).get 41).s := by
  have hbefore : schedule.take (40 + 1) = schedule.dropLast := rfl
  have hlast : schedule.dropLast ++ [⟨10, .final⟩] = schedule := rfl
  calc ((simulationTrace ek m).get 40).s
      = matrixAfter ek schedule.dropLast m := simulationTrace_s_of_take ek m 40 hbefore
    _ = matrixAfter ek [⟨10, .final⟩] (matrixAfter ek schedule.dropLast m) := (matrixAfter_final ek 10 _).symm
    _ = matrixAfter ek schedule m := by rw [← matrixAfter_append, hlast]
    _ = ((simulationTrace ek m).get 41).s := (simulationTrace_s_last ek m).symm

/-! ### The command -/

theorem exec_run_of_lengths {s : State} (h : s.ptLen = 16 ∧ s.keyLen = 16) :
    exec .run s = .next (succeed (storeSimulation (generateSimulation s.pt s.key) s)) :=
  if_pos h

theorem exec_run_of_not_lengths {s : State} (h : ¬ (s.ptLen = 16 ∧ s.keyLen = 16)) :
    exec .run s = .next (raiseCmdError errLen s) :=
  if_neg h

/-- Settles O33: STATE holds the matrix that the schedule leaves, which is the last snapshot, and FINAL repeats the
snapshot before it. -/
theorem afterRunStateIsTheLastSnapshot : Obligations.AfterRunStateIsTheLastSnapshot := by
  intro s hpt hkey
  have hforty := simulationTrace_s_forty (expandKey s.key) (toMatrix s.pt)
  have hlast := simulationTrace_s_last (expandKey s.key) (toMatrix s.pt)
  exact ⟨_, exec_run_of_lengths ⟨hpt, hkey⟩, (hforty.trans hlast).symm, hforty, rfl, rfl⟩

/-- Settles O32: the two branches of R170's length check; the matrix the model stores in STATE is the last snapshot. -/
theorem runStoresTheSimulation : Obligations.RunStoresTheSimulation := by
  refine fun s => ⟨fun h => ?_, exec_run_of_not_lengths⟩
  rw [exec_run_of_lengths h, simulationTrace_s_last]
  rfl

/-- Settles O34: what RUN writes comes from the Simulation, and equal inputs have equal Simulations. -/
theorem runDependsOnItsInputsAlone : Obligations.RunDependsOnItsInputsAlone := by
  intro s s' hpt hkey hptLen hkeyLen hptLen' hkeyLen'
  have hrun' := exec_run_of_lengths ⟨hptLen', hkeyLen'⟩
  rw [hpt, hkey] at hrun'
  exact ⟨_, _, exec_run_of_lengths ⟨hptLen, hkeyLen⟩, hrun', rfl, rfl, rfl, rfl, rfl, rfl, rfl⟩

/-- The acceptance of RUN invalidates the Simulation and leaves ERR_BUSY (10_state.md R37). -/
theorem beginCommand_run (left : Nat) (s : State) :
    beginCommand 0x90 left s =
      { s with cmd := 0x90, simValid := false, traceCount := 0, phase := .busy (some .run) left } := by
  have hrun : legalCommand 0x90 = some .run := (legalCommand_eq_run 0x90).mpr rfl
  rw [beginCommand, hrun]
  rfl

/-- Settles O35: the acceptance clears SIM_VALID and TRACE_COUNT and keeps the lengths, whose check then fails. -/
theorem rejectedRunWritesOnlyItsCode : Obligations.RejectedRunWritesOnlyItsCode := by
  intro s left h
  rw [beginCommand_run]
  exact exec_run_of_not_lengths (not_and_or.mpr h)

end Sys2Proof.Machine
end

section
/-! PROOFS. The control commands NOP and CLEAR (44_control.md R200, R201): both always succeed, and CLEAR's acceptance
and its completion together put every register but CMD at its reset value. -/

namespace Sys2Proof.Machine

theorem exec_nop (s : State) : exec .nop s = .next (succeed s) := rfl

theorem exec_clear (s : State) : exec .clear s = .next (succeed (clearRegisters s)) := rfl

/-- Settles O23: NOP succeeds in every state, and success records the code 0 and returns the engine to IDLE. -/
theorem nopSetsLastErrToZero : Obligations.NopSetsLastErrToZero := exec_nop

/-- The acceptance of CLEAR invalidates the Simulation and clears ERR_BUSY (10_state.md R37). -/
theorem beginCommand_clear (left : Nat) (s : State) :
    beginCommand 0x10 left s = { s with
      cmd := 0x10, simValid := false, traceCount := 0, errBusy := false, phase := .busy (some .clear) left } := by
  have hclear : legalCommand 0x10 = some .clear := (legalCommand_eq_clear 0x10).mpr rfl
  rw [beginCommand, hclear]
  rfl

/-- The completion of CLEAR writes every register that its acceptance clears none of. -/
theorem registersAtReset_of_clear {s : State} (hsim : s.simValid = false) (hcount : s.traceCount = 0)
    (herr : s.errBusy = false) : RegistersAtReset (succeed (clearRegisters s)) where
  status := by
    simp [State.status, State.isBusy, codeOk, hsim, herr]
  ekValid := rfl
  simValid := hsim
  errBusy := herr
  lastErr := rfl
  ptLen := rfl
  keyLen := rfl
  gfA := rfl
  gfB := rfl
  gfRes := rfl
  traceCount := hcount
  pt i := by simp [Vector.get_eq_getElem]
  key i := by simp [Vector.get_eq_getElem]
  stateMatrix := entry_zeroMatrix
  phase := rfl

/-- Settles O24: the acceptance clears SIM_VALID, TRACE_COUNT and ERR_BUSY, the completion the other registers, and
neither touches the RAMs or the host's side. -/
theorem clearReturnsTheRegistersToReset : Obligations.ClearReturnsTheRegistersToReset := by
  refine ⟨fun s left => ?_, fun s => ?_⟩
  · rw [beginCommand_clear]
    exact ⟨_, exec_clear _, registersAtReset_of_clear rfl rfl rfl, rfl, rfl, rfl, rfl, rfl, rfl⟩
  · exact ⟨_, exec_clear s, rfl, rfl, rfl, rfl, rfl, rfl, rfl, rfl, rfl, rfl, rfl, rfl⟩

end Sys2Proof.Machine
end

section
/-! PROOFS. Writes of the ports and of the GF operands (44_control.md R202, R203): what one idle write stores, and the
sixteen writes of PUTPT and PUTKEY (30_encoding.md R98), which are one argument over the port's counter and buffer. -/

namespace Sys2Proof.Machine

/-! ### One write -/

theorem hostWrite_of_idle {a : Addr} {p : Place} {s : State} (v : Byte) (hidle : s.isBusy = false)
    (hplace : place a = p) : hostWrite a v s = writePlace v s p := by
  simp [hostWrite, hidle, hplace]

theorem place_ptPort : place ptPortAddr = .ptPort := by decide

theorem place_keyPort : place keyPortAddr = .keyPort := by decide

theorem place_gfA : place 0x006 = .gfA := by decide

theorem place_gfB : place 0x007 = .gfB := by decide

/-- Settles O11: the two operands have places of their own, and a busy write is dropped. -/
theorem operandWritesAreStored : Obligations.OperandWritesAreStored :=
  fun _ v => ⟨fun hidle => ⟨hostWrite_of_idle v hidle place_gfA, hostWrite_of_idle v hidle place_gfB⟩,
    fun hbusy => ⟨hostWrite_of_busy 0x006 v hbusy, hostWrite_of_busy 0x007 v hbusy⟩⟩

/-- The length counters count and saturate at 255 (10_state.md R27). -/
theorem countByte_toNat (n : Byte) : (countByte n).toNat = min (n.toNat + 1) 255 := by
  rw [countByte]
  split
  · next h => simp [h]
  · bv_omega

/-- An appended byte is stored at the counter's index, which no buffer byte has if the counter is 16 or more. -/
theorem appendByte_get (n v : Byte) (b : Block) (i : Fin 16) :
    (appendByte n v b).get i = if i.val = n.toNat then v else b.get i := by
  simp only [appendByte, Vector.get_eq_getElem, Vector.getElem_setIfInBounds, eq_comm]

/-- Settles O12: an idle write to a port is an append at its counter, by byte index, and a count. -/
theorem portWritesAppendAndCount : Obligations.PortWritesAppendAndCount :=
  fun s v hidle =>
    ⟨⟨_, _, hostWrite_of_idle v hidle place_ptPort, countByte_toNat s.ptLen, appendByte_get s.ptLen v s.pt⟩,
      ⟨_, _, hostWrite_of_idle v hidle place_keyPort, countByte_toNat s.keyLen, appendByte_get s.keyLen v s.key⟩⟩

/-! ### The sixteen writes of a block -/

/-- While idle, a step whose host action is a write has the effect of the place written. -/
theorem step_write_of_idle {s : State} {a : Addr} {p : Place} (v : Byte) (rest : List Action) (hidle : s.phase = .idle)
    (hplace : place a = p) :
    step (s.withScript (.write a v :: rest)) = .next (writePlace v (s.withScript rest) p) := by
  have hwrite : hostWrite a v (s.withScript rest) = writePlace v (s.withScript rest) p :=
    hostWrite_of_idle v (isBusy_eq_false hidle) hplace
  rw [← hwrite]
  simp only [step, turn, State.withScript, hidle, hostTurn, performAction]

/-- A run goes on after a step that gives a next state. -/
theorem run_succ_of_step {s t : State} (k : Nat) (h : step s = .next t) :
    Host.Core.run Sys2Proof.core (k + 1) s = Host.Core.run Sys2Proof.core k t := by
  have hcore : Sys2Proof.core.step s = .next t := h
  simp only [Host.Core.run, hcore]

/-- `buffered n b` are the states of a block by the counter and the buffer of `port`: a step whose host action is a
write to `port` counts and appends, and the rest of the script is left (44_control.md R202). -/
def AppendsAt (port : Addr) (buffered : Byte → Block → State) : Prop :=
  ∀ (n v : Byte) (b : Block) (rest : List Action),
    step ((buffered n b).withScript (.write port v :: rest)) =
      .next ((buffered (countByte n) (appendByte n v b)).withScript rest)

/-- An append at index `n` extends the agreement with a block below `n` by the block's own byte. -/
theorem appendByte_agrees {n : Nat} (hn : n < 16) {b buf : Block} (h : ∀ i : Fin 16, i.val < n → buf.get i = b.get i)
    (i : Fin 16) (hi : i.val < n + 1) : (appendByte (BitVec.ofNat 8 n) (b.get ⟨n, hn⟩) buf).get i = b.get i := by
  rw [appendByte_get, BitVec.toNat_ofNat, Nat.mod_eq_of_lt (by omega)]
  split
  · next hlast => exact congrArg b.get (Fin.ext hlast.symm)
  · exact h i (by omega)

theorem countByte_ofNat {n : Nat} (hn : n < 16) : countByte (BitVec.ofNat 8 n) = BitVec.ofNat 8 (n + 1) := by
  apply BitVec.eq_of_toNat_eq
  rw [countByte_toNat, BitVec.toNat_ofNat, BitVec.toNat_ofNat]
  omega

/-- The writes of the last `left` bytes of a block complete a buffer that holds the others already. -/
theorem run_put_from {port : Addr} {buffered : Byte → Block → State} (happends : AppendsAt port buffered) (b : Block)
    (left n : Nat) (buf : Block) (hcount : n + left = 16) (hagrees : ∀ i : Fin 16, i.val < n → buf.get i = b.get i) :
    Host.Core.run Sys2Proof.core left
        ((buffered (BitVec.ofNat 8 n) buf).withScript ((b.toList.drop n).map (.write port))) =
      .next ((buffered 16 b).withScript []) := by
  induction left generalizing n buf with
  | zero =>
    obtain rfl : n = 16 := hcount
    obtain rfl : buf = b := bytes_ext fun i => hagrees i i.isLt
    rw [List.drop_eq_nil_of_le (by simp)]
    rfl
  | succ left ih =>
    have hn : n < 16 := by omega
    have hdrop : b.toList.drop n = b.get ⟨n, hn⟩ :: b.toList.drop (n + 1) := by
      rw [List.drop_eq_getElem_cons (by simpa using hn), Vector.getElem_toList, Vector.get_eq_getElem]
    rw [hdrop, List.map_cons, run_succ_of_step left (happends ..), countByte_ofNat hn]
    exact ih (n + 1) _ (by omega) (appendByte_agrees hn hagrees)

/-- The sixteen writes of a block from a counter of 0, whatever the buffer held (30_encoding.md R98). -/
theorem run_put {port : Addr} {buffered : Byte → Block → State} (happends : AppendsAt port buffered) (b : Block)
    {buf : Block} {s : State} (hstart : buffered 0 buf = s) :
    Host.Core.run Sys2Proof.core 16 (s.withScript (expandPut port b)) = .next ((buffered 16 b).withScript []) := by
  subst hstart
  exact run_put_from happends b 16 0 buf rfl nofun

/-! ### The two ports -/

/-- The block `s` with another plaintext counter and buffer. -/
def State.withPlaintext (s : State) (n : Byte) (b : Block) : State := { s with pt := b, ptLen := n }

/-- The block `s` with another key counter and buffer. -/
def State.withKey (s : State) (n : Byte) (b : Block) : State := { s with key := b, keyLen := n }

section

variable {s : State}

theorem withPlaintext_zero_self (hlen : s.ptLen = 0) : s.withPlaintext 0 s.pt = s := by
  rw [← hlen]
  rfl

theorem withKey_zero_self (hlen : s.keyLen = 0) : s.withKey 0 s.key = s := by
  rw [← hlen]
  rfl

theorem appendsAt_ptPort (hidle : s.phase = .idle) : AppendsAt ptPortAddr s.withPlaintext :=
  fun n v b rest => step_write_of_idle (s := s.withPlaintext n b) v rest hidle place_ptPort

theorem appendsAt_keyPort (hidle : s.phase = .idle) : AppendsAt keyPortAddr s.withKey :=
  fun n v b rest => step_write_of_idle (s := s.withKey n b) v rest hidle place_keyPort

end

/-- Settles O19: from a zero counter, the sixteen appends of a block at either port fill its buffer. -/
theorem putPseudoInstructionsFillTheBuffers : Obligations.PutPseudoInstructionsFillTheBuffers :=
  fun _ b hidle =>
    ⟨fun hlen => run_put (appendsAt_ptPort hidle) b (withPlaintext_zero_self hlen),
      fun hlen => run_put (appendsAt_keyPort hidle) b (withKey_zero_self hlen)⟩

end Sys2Proof.Machine
end

section
/-! PROOFS. The error codes (60_exceptions.md R210 to R215): the code that each command records, read off its branches,
and when that code is ERR_SEQ. -/

namespace Sys2Proof.Machine

/-- What a command can record: every command completes, with its outcome code in LAST_ERR (60_exceptions.md R210). -/
theorem exec_records_outcomeCode (i : Instr) (s : State) : ∃ t, exec i s = .next t ∧ t.lastErr = outcomeCode i s := by
  cases i with
  | nop => exact ⟨_, exec_nop s, rfl⟩
  | clear => exact ⟨_, exec_clear s, rfl⟩
  | load =>
    by_cases hlen : s.ptLen = 16
    · exact ⟨_, exec_load_of_length hlen, (if_pos hlen).symm⟩
    · exact ⟨_, exec_load_of_not_length hlen, (if_neg hlen).symm⟩
  | expand =>
    by_cases hlen : s.keyLen = 16
    · exact ⟨_, exec_expand_of_length hlen, (if_pos hlen).symm⟩
    · exact ⟨_, exec_expand_of_not_length hlen, (if_neg hlen).symm⟩
  | subb => exact ⟨_, exec_subb s, rfl⟩
  | shfr => exact ⟨_, exec_shfr s, rfl⟩
  | mixc => exact ⟨_, exec_mixc s, rfl⟩
  | ark n =>
    by_cases hround : n.toNat ≤ 10
    · have hbound : n.toNat < 11 := Nat.lt_succ_of_le hround
      cases hvalid : s.ekValid with
      | true => exact ⟨_, exec_ark_of_valid hbound hvalid, by simp [outcomeCode, hround, hvalid, codeOk]⟩
      | false => exact ⟨_, exec_ark_of_not_valid hbound hvalid, by simp [outcomeCode, hround, hvalid, errSeq]⟩
    · exact ⟨_, exec_ark_of_round_gt s (Nat.lt_of_not_le hround), (if_neg hround).symm⟩
  | gmul => exact ⟨_, exec_gmul s, rfl⟩
  | run =>
    by_cases hlen : s.ptLen = 16 ∧ s.keyLen = 16
    · exact ⟨_, exec_run_of_lengths hlen, (if_pos hlen).symm⟩
    · exact ⟨_, exec_run_of_not_lengths hlen, (if_neg hlen).symm⟩

/-- The code that a completed command leaves is its outcome code. -/
theorem lastErr_of_exec {i : Instr} {s t : State} (h : exec i s = .next t) : t.lastErr = outcomeCode i s := by
  obtain ⟨u, hu, hcode⟩ := exec_records_outcomeCode i s
  obtain rfl : t = u := by simpa [h] using hu
  exact hcode

/-- The code of a length check is 0 or ERR_LEN (60_exceptions.md R211). -/
theorem lengthCode_ne_errSeq (ok : Prop) [Decidable ok] : (if ok then 0 else 1) ≠ errSeq := by
  split <;> decide

/-- Only ARK with a legal round and no valid key has the code ERR_SEQ (60_exceptions.md R214). -/
theorem ark_of_outcomeCode_eq_errSeq {i : Instr} {s : State} (h : outcomeCode i s = errSeq) :
    ∃ n : BitVec 4, i = .ark n ∧ n.toNat ≤ 10 ∧ s.ekValid = false := by
  cases i with
  | ark n =>
    by_cases hround : n.toNat ≤ 10
    · cases hvalid : s.ekValid with
      | false => exact ⟨n, rfl, hround, rfl⟩
      | true => simp [outcomeCode, hround, hvalid, errSeq] at h
    · simp [outcomeCode, hround, errSeq] at h
  | load | expand | run => exact absurd h (lengthCode_ne_errSeq _)
  | nop | clear | subb | shfr | mixc | gmul => cases h

/-- Settles O49: ARK's own branch of R148 raises ERR_SEQ; a completion records the command's outcome code, or ERR_CMD
for an illegal byte, and that code is ERR_SEQ in no other branch. -/
theorem onlyArkRaisesErrSeq : Obligations.OnlyArkRaisesErrSeq := by
  refine ⟨fun n s hround hinvalid => exec_ark_of_not_valid (Nat.lt_succ_of_le hround) hinvalid,
    fun p s t hnext hcode => ?_⟩
  cases p with
  | none => cases hnext; cases hcode
  | some i =>
    have houtcome : outcomeCode i s = errSeq := (lastErr_of_exec hnext).symm.trans hcode
    obtain ⟨n, rfl, hround, hinvalid⟩ := ark_of_outcomeCode_eq_errSeq houtcome
    exact ⟨n, rfl, hround, hinvalid⟩

end Sys2Proof.Machine
end

section
/-! PROOFS. Reset and the busy hazard (70_reset_and_hazards.md R240, R246): every register of the reset block is at its
reset value, whatever the RAMs drew and the host has left to do, and a write while busy is dropped. -/

namespace Sys2Proof.Machine

/-- The registers of the reset state are at their reset values whatever the RAMs and the host's side hold
(70_reset_and_hazards.md R240, R241). -/
theorem registersAtReset_of_reset (ek : ExpandedKey) (trace : Vector TraceEntry 42) (script : List Action)
    (reads : List (Addr × Byte)) (draws : Nat) :
    RegistersAtReset { State.reset with ek := ek, trace := trace, script := script, reads := reads, draws := draws } where
  status := by simp [State.status, State.isBusy, State.reset]
  ekValid := rfl
  simValid := rfl
  errBusy := rfl
  lastErr := rfl
  ptLen := rfl
  keyLen := rfl
  gfA := rfl
  gfB := rfl
  gfRes := rfl
  traceCount := rfl
  pt i := by simp [State.reset, Vector.get_eq_getElem]
  key i := by simp [State.reset, Vector.get_eq_getElem]
  stateMatrix r c := by simp [State.reset, entry, Vector.get_eq_getElem]
  phase := rfl

/-- The power-on state is the reset state with the first draws and an empty host's side (R240). -/
theorem registersAtReset_reset : RegistersAtReset State.reset :=
  registersAtReset_of_reset (initialEk 0) (initialTrace 0) [] [] 1

/-- A reset keeps the host's side and draws the RAMs afresh; no register depends on the state before it (R240). -/
theorem registersAtReset_resetBlock (s : State) : RegistersAtReset (resetBlock s) :=
  registersAtReset_of_reset (initialEk s.draws) (initialTrace s.draws) s.script s.reads (s.draws + 1)

/-- The reset line resets the block and leaves the host the rest of its script. -/
theorem performAction_reset (rest : List Action) (s : State) :
    performAction .reset rest s = .next (resetBlock { s with script := rest }) := rfl

/-- Settles O1: `State.reset` and the state after the reset action differ in the RAMs and the host's side alone, and
the registers do not depend on those. -/
theorem resetPutsEveryRegisterAtItsValue : Obligations.ResetPutsEveryRegisterAtItsValue :=
  ⟨⟨registersAtReset_reset, rfl⟩, fun rest s =>
    ⟨_, performAction_reset rest s, registersAtReset_resetBlock _, resetBlock_cmd _⟩⟩

/-- Settles O10: a busy phase is STATUS.BUSY, and a write under BUSY is dropped. -/
theorem busyWriteIsDropped : Obligations.BusyWriteIsDropped :=
  fun _ a v _ _ hbusy => hostWrite_of_busy a v (isBusy_eq_true hbusy)

end Sys2Proof.Machine
end

section
/-! PROOFS. The command bytes (30_encoding.md R91 to R95): a byte is its two fields, and the decoder gives a command the
two fields that its byte has. -/

namespace Sys2Proof.Machine

open Sys2Proof.Laws

/-- A byte is determined by its OP and ARG fields (30_encoding.md R91). -/
theorem byte_ext_fields {c d : Byte} (hop : commandOp c = commandOp d) (harg : commandArg c = commandArg d) : c = d := by
  have hhigh := congrArg BitVec.toNat hop
  have hlow := congrArg BitVec.toNat harg
  rw [commandOp_toNat, commandOp_toNat] at hhigh
  rw [commandArg_toNat, commandArg_toNat] at hlow
  apply BitVec.eq_of_toNat_eq
  omega

theorem encodeByte_fields (i : Instr) : CommandFields.Statement i := by
  cases i with
  | nop => exact CommandFields.nop
  | clear => exact CommandFields.clear
  | load => exact CommandFields.load
  | expand => exact CommandFields.expand
  | subb => exact CommandFields.subb
  | shfr => exact CommandFields.shfr
  | mixc => exact CommandFields.mixc
  | ark n => exact CommandFields.ark n
  | gmul => exact CommandFields.gmul
  | run => exact CommandFields.run

theorem withoutArgument_eq_ok {c : Byte} {i j : Instr} (h : withoutArgument c i = .ok j) :
    commandArg c = 0 ∧ j = i := by
  unfold withoutArgument at h
  split at h
  · next harg => cases h; exact ⟨harg, rfl⟩
  · cases h

/-- A byte that decodes to `i` has the opcode and the argument of `i`, and `i` is well-formed. The cases are the
opcodes: 0x0..0x6, ARK, 0x8, 0x9, and the reserved ones. -/
theorem decodeByte_fields {c : Byte} {i : Instr} (h : decodeByte c = .ok i) :
    i.wf = true ∧ (commandOp c).toNat = (CommandFields.opcode i).toNat ∧ commandArg c = CommandFields.argument i := by
  unfold decodeByte at h
  split at h
  case h_8 hop =>
    split at h
    · next hround => cases h; exact ⟨decide_eq_true hround, hop, rfl⟩
    · cases h
  case h_11 => cases h
  all_goals
    obtain ⟨harg, rfl⟩ := withoutArgument_eq_ok h
    exact ⟨rfl, ‹_›, harg⟩

theorem encodeByte_of_decodeByte {c : Byte} {i : Instr} (h : decodeByte c = .ok i) : i.wf = true ∧ encodeByte i = c := by
  obtain ⟨hwf, hop, harg⟩ := decodeByte_fields h
  obtain ⟨hop', harg'⟩ := encodeByte_fields i
  exact ⟨hwf, byte_ext_fields (hop'.trans (BitVec.eq_of_toNat_eq hop).symm) (harg'.trans harg.symm)⟩

/-- The decoder undoes the encoder; only the round number of ARK is checked (30_encoding.md R94 item 3). -/
theorem decodeByte_encodeByte {i : Instr} (h : i.wf = true) : decodeByte (encodeByte i) = .ok i := by
  cases i with
  | ark n =>
    obtain ⟨hop, harg⟩ := CommandFields.ark n
    have hround : n.toNat ≤ 10 := of_decide_eq_true h
    simp [decodeByte, hop, harg, CommandFields.opcode, CommandFields.argument, hround]
  | _ => rfl

/-- A command is the first byte of the list (30_encoding.md R90). -/
theorem decode_encode {i : Instr} (rest : List Byte) (h : i.wf = true) : decode (encode i ++ rest) = .ok (i, rest) := by
  simp [encode, decode, decodeByte_encodeByte h, Except.map]

/-- Settles O13: the decoder undoes the encoder, and the fields that the decoder reads are those of the command's own
byte. -/
theorem decodeAndEncodeAgree : Obligations.DecodeAndEncodeAgree :=
  ⟨fun _ rest => decode_encode rest, fun _ _ => encodeByte_of_decodeByte⟩

/-- Settles O14: the seven bytes are the encoder's, which the decoder undoes. -/
theorem commandBytesOfTheMapDecode : Obligations.CommandBytesOfTheMapDecode :=
  ⟨decodeByte_encodeByte (i := .nop) rfl, decodeByte_encodeByte (i := .clear) rfl,
    decodeByte_encodeByte (i := .expand) rfl, decodeByte_encodeByte (i := .mixc) rfl,
    decodeByte_encodeByte (i := .ark 10) rfl, decodeByte_encodeByte (i := .gmul) rfl,
    decodeByte_encodeByte (i := .run) rfl⟩

end Sys2Proof.Machine
end

section
/-! PROOFS. Completions (10_state.md R37; 60_exceptions.md R210, R212): a command records its outcome code; a code other
than 0 comes with no other write, and the code 0 with the writes of the command. -/

namespace Sys2Proof.Machine

/-- What a command can do, by its outcome code. -/
theorem exec_cases_outcomeCode {i : Instr} {s t : State} (h : exec i s = .next t) :
    (outcomeCode i s ≠ 0 ∧ t = raiseCmdError (outcomeCode i s) s) ∨
    (outcomeCode i s = 0 ∧ ∃ u, CommandWrites i s u ∧ t = succeed u) := by
  have hcode := lastErr_of_exec h
  obtain ⟨code, hmem, rfl⟩ | ⟨u, hwrites, rfl⟩ := exec_cases h
  · have hne : ∀ code ∈ [errLen, errCmd, errSeq], code ≠ 0 := by decide
    rw [← hcode]
    exact .inl ⟨hne code hmem, rfl⟩
  · exact .inr ⟨hcode.symm, u, hwrites, rfl⟩

theorem outcomeCode_le (i : Instr) (s : State) : outcomeCode i s ≤ 3 := by
  cases i with
  | load | expand | run => simp only [outcomeCode]; split <;> decide
  | ark n =>
    simp only [outcomeCode]
    split
    · split <;> decide
    · decide
  | nop | clear | subb | shfr | mixc | gmul => exact (by decide : (0 : BitVec 3) ≤ 3)

theorem outcomeCode_expand {s : State} (h : s.keyLen = 16) : outcomeCode .expand s = 0 := if_pos h

theorem outcomeCode_run {s : State} (h : s.ptLen = 16 ∧ s.keyLen = 16) : outcomeCode .run s = 0 := if_pos h

section

variable {i : Instr} {s u : State} (h : CommandWrites i s u)
include h

/-- The writes of a command leave ERR_BUSY, CMD and the host's side alone. -/
theorem CommandWrites.frame : u.errBusy = s.errBusy ∧ u.cmd = s.cmd ∧ SameHostSide s u := by
  cases i with
  | nop | clear | subb | shfr | mixc | gmul => cases h; exact ⟨rfl, rfl, rfl, rfl, rfl⟩
  | load | expand => obtain ⟨-, rfl⟩ := h; exact ⟨rfl, rfl, rfl, rfl, rfl⟩
  | ark n => obtain ⟨-, -, rfl⟩ := h; exact ⟨rfl, rfl, rfl, rfl, rfl⟩
  | run => obtain ⟨-, -, rfl⟩ := h; exact ⟨rfl, rfl, rfl, rfl, rfl⟩

/-- RUN alone writes the trace RAM (43_sequencer.md R178) and SIM_VALID. -/
theorem CommandWrites.simulation (hrun : i ≠ .run) : u.trace = s.trace ∧ u.simValid = s.simValid := by
  cases i with
  | nop | clear | subb | shfr | mixc | gmul => cases h; exact ⟨rfl, rfl⟩
  | load | expand => obtain ⟨-, rfl⟩ := h; exact ⟨rfl, rfl⟩
  | ark n => obtain ⟨-, -, rfl⟩ := h; exact ⟨rfl, rfl⟩
  | run => exact absurd rfl hrun

end

/-- The frame of a completion: ERR_BUSY, CMD and the host's side are as before, and the engine is idle. -/
theorem exec_frame {i : Instr} {s t : State} (h : exec i s = .next t) :
    t.errBusy = s.errBusy ∧ t.cmd = s.cmd ∧ SameHostSide s t ∧ t.phase = .idle := by
  obtain ⟨-, rfl⟩ | ⟨-, u, hwrites, rfl⟩ := exec_cases_outcomeCode h
  · exact ⟨rfl, rfl, ⟨rfl, rfl, rfl⟩, rfl⟩
  · obtain ⟨herr, hcmd, hhost⟩ := hwrites.frame
    exact ⟨herr, hcmd, hhost, rfl⟩

theorem exec_simValid {i : Instr} {s t : State} (h : exec i s = .next t) :
    t.simValid = if i = .run ∧ s.ptLen = 16 ∧ s.keyLen = 16 then true else s.simValid := by
  obtain ⟨hcode, rfl⟩ | ⟨-, u, hwrites, rfl⟩ := exec_cases_outcomeCode h
  · rw [if_neg]
    · rfl
    · rintro ⟨rfl, hlen⟩
      exact hcode (outcomeCode_run hlen)
  · by_cases hrun : i = .run
    · subst hrun
      obtain ⟨hpt, hkey, rfl⟩ := hwrites
      simp [hpt, hkey]
    · simp [hrun, (hwrites.simulation hrun).2]

theorem CommandWrites.ekValid_eq {i : Instr} {s u : State} (h : CommandWrites i s u) :
    u.ekValid = if i = .clear then false else if i = .expand ∨ i = .run then true else s.ekValid := by
  cases i with
  | nop | clear | subb | shfr | mixc | gmul => cases h; rfl
  | load | expand => obtain ⟨-, rfl⟩ := h; rfl
  | ark n => obtain ⟨-, -, rfl⟩ := h; rfl
  | run => obtain ⟨-, -, rfl⟩ := h; rfl

theorem exec_ekValid {i : Instr} {s t : State} (h : exec i s = .next t) :
    t.ekValid = if i = .clear then false
      else if (i = .expand ∧ s.keyLen = 16) ∨ (i = .run ∧ s.ptLen = 16 ∧ s.keyLen = 16) then true else s.ekValid := by
  obtain ⟨hcode, rfl⟩ | ⟨-, u, hwrites, rfl⟩ := exec_cases_outcomeCode h
  · rw [if_neg, if_neg]
    · rfl
    · rintro (⟨rfl, hlen⟩ | ⟨rfl, hlen⟩)
      · exact hcode (outcomeCode_expand hlen)
      · exact hcode (outcomeCode_run hlen)
    · rintro rfl
      exact hcode rfl
  · rw [succeed_ekValid, hwrites.ekValid_eq]
    cases i with
    | expand => simp [hwrites.1]
    | run => simp [hwrites.1, hwrites.2.1]
    | _ => simp

/-- Settles O50: every command completes with its outcome code; the frame and the two marks by what the command
wrote. -/
theorem commandsWriteOnlyTheirStatusBits : Obligations.CommandsWriteOnlyTheirStatusBits := by
  intro i s
  obtain ⟨t, hexec, hcode⟩ := exec_records_outcomeCode i s
  obtain ⟨herr, hcmd, hhost, hidle⟩ := exec_frame hexec
  exact ⟨t, hexec, herr, hcmd, hhost, hidle, hcode, exec_simValid hexec, exec_ekValid hexec⟩

/-- Settles O48: a completion that leaves a code other than 0 is that of an error, which writes its code alone. -/
theorem errorsArePrecise : Obligations.ErrorsArePrecise := by
  intro p s t h herr
  cases p with
  | none => cases h; rfl
  | some i =>
    obtain ⟨-, rfl⟩ | ⟨-, u, -, rfl⟩ := exec_cases_outcomeCode h
    · rfl
    · exact absurd rfl herr

end Sys2Proof.Machine
end

section
/-! PROOFS. The invariant of the block (10_state.md R24, R29, R39, R40): it holds at reset, a turn of the host keeps it,
because what it speaks of changes only at an acceptance, a port write or a reset, and a completion keeps it, because what
is pending is the command in CMD. -/

namespace Sys2Proof.Machine

/-- At the reset values no mark of validity is set, so the RAMs may hold anything (70_reset_and_hazards.md R241). -/
theorem RegistersAtReset.inv {s : State} (h : RegistersAtReset s) : s.Inv where
  knownCode := by rw [h.lastErr]; decide
  traceCount := by rw [h.traceCount, h.simValid]; rfl
  ekValid hvalid := by rw [h.ekValid] at hvalid; cases hvalid
  simValid hvalid := by rw [h.simValid] at hvalid; cases hvalid
  pending p left hbusy := by rw [h.phase] at hbusy; cases hbusy

/-- Settles O55: the reset state has every register at its reset value. -/
theorem invariantHoldsAtReset : Obligations.InvariantHoldsAtReset := registersAtReset_reset.inv

/-! ### A turn of the host -/

/-- The turns left and the host's side are not in the invariant. -/
theorem State.Inv.of_sameEngine {s t : State} (h : s.Inv) (hsame : SameEngine s t)
    (hphase : ∀ p left, t.phase = .busy p left → ∃ left', s.phase = .busy p left') : t.Inv where
  knownCode := by rw [hsame.lastErr]; exact h.knownCode
  traceCount := by rw [hsame.traceCount, hsame.simValid]; exact h.traceCount
  ekValid := by rw [hsame.ekValid, hsame.keyLen, hsame.ek, hsame.key]; exact h.ekValid
  simValid := by
    rw [hsame.simValid, hsame.ptLen, hsame.keyLen, hsame.ek, hsame.key, hsame.trace, hsame.pt]
    exact h.simValid
  pending p left hbusy := by
    obtain ⟨left', hbusy'⟩ := hphase p left hbusy
    rw [hsame.cmd, hsame.simValid]
    exact h.pending p left' hbusy'

/-- RUN and CLEAR drop the Simulation at their acceptance, and what is pending is the command of the byte stored
(10_state.md R37). -/
theorem acceptCommand_inv {s : State} (c : Byte) (h : s.Inv) : (acceptCommand c s).Inv where
  knownCode := h.knownCode
  traceCount := by
    cases hdrop : invalidatesSimulation (legalCommand c) <;> simp [hdrop, h.traceCount]
  ekValid := h.ekValid
  simValid hvalid := by
    refine h.simValid ?_
    rw [acceptCommand_simValid] at hvalid
    split at hvalid
    · cases hvalid
    · exact hvalid
  pending p left hbusy := by
    cases hbusy
    exact ⟨rfl, fun hdrop => if_pos hdrop⟩

/-- A Simulation stands for 16 counted bytes, past which a port write is counted and not stored (44_control.md R202). -/
theorem appendPlaintext_inv {s : State} (v : Byte) (h : s.Inv) : (appendPlaintext v s).Inv where
  knownCode := h.knownCode
  traceCount := h.traceCount
  ekValid := h.ekValid
  simValid hvalid := by
    obtain ⟨hpt, hkey, hek, htrace⟩ := h.simValid hvalid
    refine ⟨countByte_full hpt, hkey, hek, ?_⟩
    rw [appendPlaintext_pt, appendByte_full v s.pt hpt]
    exact htrace
  pending := h.pending

theorem appendKey_inv {s : State} (v : Byte) (h : s.Inv) : (appendKey v s).Inv where
  knownCode := h.knownCode
  traceCount := h.traceCount
  ekValid hvalid := by
    obtain ⟨hkey, hek⟩ := h.ekValid hvalid
    refine ⟨countByte_full hkey, ?_⟩
    rw [appendKey_key, appendByte_full v s.key hkey]
    exact hek
  simValid hvalid := by
    obtain ⟨hpt, hkey, hek, htrace⟩ := h.simValid hvalid
    refine ⟨hpt, countByte_full hkey, ?_⟩
    rw [appendKey_key, appendByte_full v s.key hkey]
    exact ⟨hek, htrace⟩
  pending := h.pending

/-- A change of ERR_BUSY, of the GF registers, of STATE or of the host's side leaves the invariant as it is. -/
theorem State.Inv.of_unconstrained {s : State} (h : s.Inv) (errBusy : Bool) (gfA gfB gfRes : Byte) (m : StateMatrix)
    (script : List Action) (reads : List (Addr × Byte)) (draws : Nat) :
    State.Inv { s with
      errBusy := errBusy, gfA := gfA, gfB := gfB, gfRes := gfRes, stateMatrix := m
      script := script, reads := reads, draws := draws } :=
  ⟨h.knownCode, h.traceCount, h.ekValid, h.simValid, h.pending⟩

theorem hostWrite_inv {s : State} (a : Addr) (v : Byte) (h : s.Inv) : (hostWrite a v s).Inv := by
  obtain ⟨-, heq⟩ | ⟨-, -, heq⟩ | ⟨-, -, heq⟩ | ⟨-, -, heq⟩ | ⟨-, -, heq⟩ | ⟨-, -, heq⟩ | ⟨-, heq⟩ :=
    hostWrite_cases a v s <;> rw [heq]
  · exact h.of_unconstrained ..
  · exact acceptCommand_inv v h
  · exact appendPlaintext_inv v h
  · exact appendKey_inv v h
  · exact h.of_unconstrained ..
  · exact h.of_unconstrained ..
  · exact h

theorem hostTurn_inv {s t : State} (h : s.Inv) (hturn : hostTurn s = .next t) : t.Inv := by
  obtain ⟨-, rfl⟩ | ⟨a, v, rest, -, rfl⟩ | ⟨a, rest, b, u, -, hread, rfl⟩ | ⟨rest, -, rfl⟩ | ⟨rest, -, rfl⟩ :=
    hostTurn_cases hturn
  · exact h
  · exact hostWrite_inv a v (h.of_unconstrained ..)
  · obtain ⟨-, -, -, rfl⟩ | ⟨-, -, rfl⟩ := hostRead_ok hread
    · exact h.of_unconstrained ..
    · exact h.of_unconstrained ..
  · exact h.of_unconstrained ..
  · exact (registersAtReset_resetBlock _).inv

/-! ### A completion -/

/-- To complete is to record a known code and to have nothing pending. -/
theorem completeWith_inv {s : State} {code : BitVec 3} (h : s.Inv) (hcode : code ≤ 3) : (completeWith code s).Inv where
  knownCode := hcode
  traceCount := h.traceCount
  ekValid := h.ekValid
  simValid := h.simValid
  pending _ _ hbusy := by cases hbusy

/-- EXPAND makes EK the expanded key, which a Simulation had there already (10_state.md R39, R40). -/
theorem expand_inv {s : State} (h : s.Inv) (hlen : s.keyLen = 16) :
    State.Inv { s with ek := expandKey s.key, ekValid := true } where
  knownCode := h.knownCode
  traceCount := h.traceCount
  ekValid _ := ⟨by simp [hlen], rfl⟩
  simValid hvalid := by
    obtain ⟨hpt, hkey, -, htrace⟩ := h.simValid hvalid
    exact ⟨hpt, hkey, rfl, htrace⟩
  pending := h.pending

/-- What RUN stores is the Simulation of PT and KEY (43_sequencer.md R170); its pending phase is over after it. -/
theorem succeed_storeSimulation_inv {s : State} (hpt : s.ptLen = 16) (hkey : s.keyLen = 16) :
    (succeed (storeSimulation (generateSimulation s.pt s.key) s)).Inv where
  knownCode := by rw [succeed_lastErr]; decide
  traceCount := rfl
  ekValid _ := ⟨by simp [hkey], rfl⟩
  simValid _ := ⟨by simp [hpt], by simp [hkey], rfl, rfl⟩
  pending _ _ hbusy := by cases hbusy

/-- CLEAR empties the buffers of a block whose Simulation its acceptance has dropped. -/
theorem clearRegisters_inv {s : State} (h : s.Inv) (hdropped : s.simValid = false) : (clearRegisters s).Inv where
  knownCode := h.knownCode
  traceCount := h.traceCount
  ekValid hvalid := by cases hvalid
  simValid hvalid := by rw [clearRegisters_simValid, hdropped] at hvalid; cases hvalid
  pending := h.pending

theorem exec_inv {s t : State} {i : Instr} {left : Nat} (h : s.Inv) (hpending : s.phase = .busy (some i) left)
    (hexec : exec i s = .next t) : t.Inv := by
  obtain ⟨-, rfl⟩ | ⟨-, u, hwrites, rfl⟩ := exec_cases_outcomeCode hexec
  · exact completeWith_inv h (outcomeCode_le i s)
  · cases i with
    | nop => cases hwrites; exact completeWith_inv h (by decide)
    | subb | shfr | mixc | gmul =>
      cases hwrites
      exact completeWith_inv (h.of_unconstrained ..) (by decide)
    | clear =>
      cases hwrites
      exact completeWith_inv (clearRegisters_inv h ((h.pending _ _ hpending).2 rfl)) (by decide)
    | load =>
      obtain ⟨-, rfl⟩ := hwrites
      exact completeWith_inv (h.of_unconstrained ..) (by decide)
    | ark n =>
      obtain ⟨-, -, rfl⟩ := hwrites
      exact completeWith_inv (h.of_unconstrained ..) (by decide)
    | expand =>
      obtain ⟨hlen, rfl⟩ := hwrites
      exact completeWith_inv (expand_inv h hlen) (by decide)
    | run =>
      obtain ⟨hpt, hkey, rfl⟩ := hwrites
      exact succeed_storeSimulation_inv hpt hkey

/-! ### The step -/

/-- The turn that a busy engine gives away is not in the invariant. -/
theorem State.Inv.turn_used {s : State} {p : Option Instr} {left left' : Nat} (h : s.Inv)
    (hphase : s.phase = .busy p left) : State.Inv { s with phase := .busy p left' } := by
  refine h.of_sameEngine ?_ fun q k hbusy => ?_
  · constructor <;> rfl
  · cases hbusy
    exact ⟨left, hphase⟩

/-- Settles O56: by what a step can do, a turn of the host or the completion of what is pending. -/
theorem stepKeepsTheInvariant : Obligations.StepKeepsTheInvariant := by
  intro s t h hstep
  obtain ⟨-, hturn⟩ | ⟨i, hphase, hexec⟩ | ⟨-, rfl⟩ | ⟨p, left, hphase, hturn⟩ := step_cases hstep
  · exact hostTurn_inv h hturn
  · exact exec_inv h hphase hexec
  · exact completeWith_inv h (by decide)
  · exact hostTurn_inv (h.turn_used hphase) hturn

/-! ### Totality -/

theorem knownErrorCode_of_le {s : State} (h : s.lastErr ≤ 3) : s.knownErrorCode = true := decide_eq_true h

/-- With a known code no host read faults (93_implementation_defined.md U10). -/
theorem recordRead_total {s : State} (hcode : s.lastErr ≤ 3) (a : Addr) (next : Byte → List Action) :
    ∃ t, recordRead a next s = .next t := by
  cases hread : hostRead a s with
  | ok r => exact ⟨_, by rw [recordRead, hread]⟩
  | error f =>
    obtain ⟨-, hunknown, -⟩ := hostRead_error hread
    rw [knownErrorCode_of_le hcode] at hunknown
    cases hunknown

theorem hostTurn_total {s : State} (hcode : s.lastErr ≤ 3) : ∃ t, hostTurn s = .next t := by
  unfold hostTurn
  split
  · exact ⟨s, rfl⟩
  · next act rest _ =>
    cases act with
    | write a v => exact ⟨_, rfl⟩
    | read a => exact recordRead_total hcode a _
    | wait => exact recordRead_total hcode statusAddr _
    | reset => exact ⟨_, rfl⟩

theorem completeCommand_total (p : Option Instr) (s : State) : ∃ t, completeCommand p s = .next t := by
  cases p with
  | none => exact ⟨_, rfl⟩
  | some i =>
    obtain ⟨t, hexec, -⟩ := exec_records_outcomeCode i s
    exact ⟨t, hexec⟩

theorem step_total {s : State} (hcode : s.lastErr ≤ 3) : ∃ t, step s = .next t := by
  unfold step turn
  split
  · exact hostTurn_total hcode
  · exact completeCommand_total _ s
  · exact hostTurn_total hcode

theorem recordRead_ne_refused (a : Addr) (next : Byte → List Action) (s : State) (r : Refusal) :
    recordRead a next s ≠ .refused r := by
  unfold recordRead
  split <;> nofun

theorem hostTurn_ne_refused (s : State) (r : Refusal) : hostTurn s ≠ .refused r := by
  unfold hostTurn
  split
  · nofun
  · next act rest _ =>
    cases act with
    | write a v => nofun
    | read a => exact recordRead_ne_refused a _ s r
    | wait => exact recordRead_ne_refused statusAddr _ s r
    | reset => nofun

theorem step_ne_refused (s : State) (r : Refusal) : step s ≠ .refused r := by
  unfold step turn
  split
  · exact hostTurn_ne_refused s r
  · next p _ =>
    obtain ⟨t, ht⟩ := completeCommand_total p s
    rw [ht]
    nofun
  · exact hostTurn_ne_refused _ r

/-- A step stops only on a code that no rule gives a meaning (10_state.md R24). -/
theorem lastErr_of_step_fault {s : State} {f : Fault} (h : step s = .fault f) : 3 < s.lastErr := by
  by_contra hknown
  obtain ⟨t, ht⟩ := step_total (BitVec.not_lt.mp hknown)
  rw [h] at ht
  cases ht

/-- Settles O57: with a known code every read, and so every step, answers; the invariant has one. -/
theorem stepStopsOnlyOnAReservedCode : Obligations.StepStopsOnlyOnAReservedCode :=
  ⟨fun _ h => step_total h.knownCode, fun _ _ => lastErr_of_step_fault, step_ne_refused⟩

end Sys2Proof.Machine
end

section
/-! PROOFS. A host that waits after every command (70_reset_and_hazards.md R244 item 4, R246): while the engine is busy
its script stands at a WAIT, so no write falls in the busy period. -/

namespace Sys2Proof.Machine

theorem waitsNext_of_disciplined {a : Addr} {v : Byte} {rest : List Action}
    (h : disciplined (.write a v :: rest) = true) : (a = cmdAddr → waitsNext rest = true) ∧ disciplined rest = true := by
  simp only [disciplined, Bool.and_eq_true, Bool.or_eq_true, decide_eq_true_eq] at h
  exact ⟨fun hcmd => h.1.resolve_left (not_not_intro hcmd), h.2⟩

/-- While busy the next action is a WAIT, if there is one. -/
theorem State.KeepsProtocol.idle_of_head {s : State} {act : Action} {rest : List Action} (h : s.KeepsProtocol)
    (hscript : s.script = act :: rest) (hact : waitsNext (act :: rest) = false) : s.isBusy = false := by
  rw [Bool.eq_false_iff]
  intro hbusy
  have hwaits := h.waiting hbusy
  rw [hscript, hact] at hwaits
  cases hwaits

/-- A write by an idle block leaves ERR_BUSY 0 and the script alone, and only a write of CMD makes the engine busy. -/
theorem hostWrite_idle_protocol {s : State} (a : Addr) (v : Byte) (hidle : s.isBusy = false)
    (herr : s.errBusy = false) :
    (hostWrite a v s).errBusy = false ∧ (hostWrite a v s).script = s.script ∧
      ((hostWrite a v s).isBusy = true → a = cmdAddr) := by
  obtain ⟨hbusy, -⟩ | ⟨-, hplace, heq⟩ | ⟨-, -, heq⟩ | ⟨-, -, heq⟩ | ⟨-, -, heq⟩ | ⟨-, -, heq⟩ | ⟨-, heq⟩ :=
    hostWrite_cases a v s
  case inl => rw [hidle] at hbusy; cases hbusy
  case inr.inl =>
    rw [heq]
    exact ⟨by simp [herr], rfl, fun _ => place_eq_cmd hplace⟩
  all_goals
    rw [heq]
    refine ⟨herr, rfl, fun hbusy => ?_⟩
    have hsame : s.isBusy = true := hbusy
    rw [hidle] at hsame
    cases hsame

theorem hostTurn_keepsProtocol {s t : State} (h : s.KeepsProtocol) (hturn : hostTurn s = .next t) :
    t.KeepsProtocol := by
  have hscript := h.script
  obtain ⟨-, rfl⟩ | ⟨a, v, rest, hs, rfl⟩ | ⟨a, rest, b, u, hs, hread, rfl⟩ | ⟨rest, hs, rfl⟩ | ⟨rest, hs, rfl⟩ :=
    hostTurn_cases hturn
  · exact h
  · obtain ⟨hwaits, hrest⟩ := waitsNext_of_disciplined (hs ▸ hscript)
    obtain ⟨herr, hkept, hbusy⟩ :=
      hostWrite_idle_protocol (s := { s with script := rest }) a v (h.idle_of_head hs rfl) h.errBusy
    exact ⟨hkept ▸ hrest, herr, fun hb => hkept ▸ hwaits (hbusy hb)⟩
  · have hidle := h.idle_of_head hs rfl
    obtain ⟨hbusy, -⟩ | ⟨-, -, rfl⟩ := hostRead_ok hread
    · rw [hidle] at hbusy; cases hbusy
    · rw [hs] at hscript
      exact ⟨hscript, h.errBusy, fun hb => absurd hb (Bool.eq_false_iff.mp hidle)⟩
  · rw [hs] at hscript
    refine ⟨?_, h.errBusy, fun hb => ?_⟩
    · dsimp only
      split <;> exact hscript
    · have hbusy : s.isBusy = true := hb
      simp [hbusy, waitsNext]
  · rw [hs] at hscript
    exact ⟨hscript, rfl, fun hb => by cases hb⟩

/-- After a completion the engine is idle, and the host's script and ERR_BUSY are as they were. -/
theorem State.KeepsProtocol.of_completion {s t : State} (h : s.KeepsProtocol) (hscript : t.script = s.script)
    (herr : t.errBusy = s.errBusy) (hidle : t.phase = .idle) : t.KeepsProtocol :=
  ⟨hscript ▸ h.script, herr ▸ h.errBusy, fun hbusy => absurd hbusy (by simp [isBusy_eq_false hidle])⟩

/-- Settles O60: a script placed at reset meets an idle engine; and by what a step can do, the script stands at a WAIT
from each acceptance to its completion. -/
theorem disciplinedHostNeverLosesAWrite : Obligations.DisciplinedHostNeverLosesAWrite := by
  refine ⟨fun script h => ⟨h, rfl, fun hbusy => by cases hbusy⟩, fun s t h hstep => ?_⟩
  obtain ⟨-, hturn⟩ | ⟨i, -, hexec⟩ | ⟨-, rfl⟩ | ⟨p, left, hphase, hturn⟩ := step_cases hstep
  · exact hostTurn_keepsProtocol h hturn
  · obtain ⟨herr, -, ⟨hscript, -, -⟩, hidle⟩ := exec_frame hexec
    exact h.of_completion hscript herr hidle
  · exact h.of_completion rfl rfl rfl
  · exact hostTurn_keepsProtocol (s := { s with phase := .busy p left })
      ⟨h.script, h.errBusy, fun _ => h.waiting (isBusy_eq_true hphase)⟩ hturn

end Sys2Proof.Machine
end

section
/-! PROOFS. The address map as a whole (20_memory.md R61, R63, R67): the addresses of each place, and from them which
addresses are reserved and which are drawn while busy. -/

namespace Sys2Proof.Machine

/-- The addresses of a place: the rows of 20_memory.md R61, with the bytes of a row numbered as R62 to R64 say. -/
def placeAddress : Place → Nat → Prop
  | .status, a => a = 0x000
  | .cmd, a => a = 0x001
  | .ptPort, a => a = 0x002
  | .keyPort, a => a = 0x003
  | .ptLen, a => a = 0x004
  | .keyLen, a => a = 0x005
  | .gfA, a => a = 0x006
  | .gfB, a => a = 0x007
  | .gfRes, a => a = 0x008
  | .traceCount, a => a = 0x009
  | .pt i, a => a = 0x010 + i.val
  | .key i, a => a = 0x020 + i.val
  | .stateMatrix r c, a => a = 0x030 + 4 * r.val + c.val
  | .sbox v, a => a = 0x100 + v.toNat
  | .rcon i, a => a = 0x200 + i.val
  | .ek i, a => a = 0x300 + i.val
  | .trace k off, a => a = 0x400 + 64 * k.val + off.toNat
  | .reserved, a => (0x00A ≤ a ∧ a ≤ 0x00F) ∨ (0x040 ≤ a ∧ a ≤ 0x0FF) ∨ (0x20B ≤ a ∧ a ≤ 0x2FF) ∨
      (0x3B0 ≤ a ∧ a ≤ 0x3FF) ∨ 0xE80 ≤ a

theorem registerPlace_address (low : BitVec 4) : placeAddress (registerPlace low) low.toNat := by
  have hlt := low.isLt
  unfold registerPlace
  split
  case h_11 =>
    simp only [imp_false] at *
    simp only [placeAddress]
    omega
  all_goals assumption

/-- Every address is an address of its place. -/
theorem place_address (a : Addr) : placeAddress (place a) a.toNat := by
  have hlt := a.isLt
  have hlow : (a.extractLsb' 0 4).toNat = a.toNat % 16 := by simp [BitVec.extractLsb'_toNat]
  have hrow : (windowRow (a.extractLsb' 0 4)).val = a.toNat % 16 / 4 := by
    simp only [windowRow, BitVec.val_toFin, BitVec.extractLsb'_toNat]
    omega
  have hcolumn : (windowColumn (a.extractLsb' 0 4)).val = a.toNat % 4 := by
    simp only [windowColumn, BitVec.val_toFin, BitVec.extractLsb'_toNat]
    omega
  have hbyte : (a.extractLsb' 0 8).toNat = a.toNat % 256 := by simp [BitVec.extractLsb'_toNat]
  have hoff : (a.extractLsb' 0 6).toNat = a.toNat % 64 := by simp [BitVec.extractLsb'_toNat]
  generalize hplace : place a = p
  unfold place at hplace
  simp only at hplace
  split at hplace
  · next hreg =>
    have haddr := registerPlace_address (a.extractLsb' 0 4)
    rwa [hplace, hlow, Nat.mod_eq_of_lt hreg] at haddr
  · repeat' split at hplace
    all_goals
      subst hplace
      simp only [placeAddress, BitVec.val_toFin, hlow, hrow, hcolumn, hbyte, hoff]
      omega

/-- The offsets of an entry with no storage behind them (20_memory.md R63). -/
theorem ramBackedOffset_iff (off : BitVec 6) :
    ramBackedOffset off = true ↔ off.toNat < 0x04 ∨ (0x10 ≤ off.toNat ∧ off.toNat < 0x30) := by
  simp [ramBackedOffset]

theorem reservedTraceAddress_iff (k : Fin 42) (off : BitVec 6) :
    reservedTraceAddress (0x400 + 64 * k.val + off.toNat) ↔ ramBackedOffset off = false := by
  have hk := k.isLt
  have hoff := off.isLt
  rw [← Bool.not_eq_true, ramBackedOffset_iff]
  unfold reservedTraceAddress
  omega

/-- The first list of 70_reset_and_hazards.md R245 names the places whose busy reads are draws. -/
theorem drawnAddress_iff (a : Addr) : drawnAddress a.toNat ↔ drawnWhileBusy (place a) = true := by
  have haddr := place_address a
  cases hplace : place a with
  | trace k off =>
    have hk := k.isLt
    have hoff := off.isLt
    rw [hplace, placeAddress] at haddr
    have htrace : drawnAddress a.toNat ↔ ¬ reservedTraceAddress a.toNat := by
      unfold drawnAddress reservedTraceAddress
      omega
    rw [htrace, haddr, reservedTraceAddress_iff, Bool.not_eq_false, drawnWhileBusy]
  | sbox v =>
    have hv := v.isLt
    rw [hplace, placeAddress] at haddr
    simp only [drawnWhileBusy, drawnAddress, Bool.false_eq_true, iff_false]
    omega
  | _ =>
    rw [hplace] at haddr
    simp only [placeAddress] at haddr
    simp only [drawnWhileBusy, drawnAddress, Bool.false_eq_true, iff_false, iff_true]
    omega

/-- A reserved address is in a reserved row, or at a reserved offset of a trace entry (20_memory.md R67). -/
theorem place_of_reservedAddress {a : Addr} (h : reservedAddress a.toNat) :
    place a = .reserved ∨ ∃ k off, place a = .trace k off ∧ ramBackedOffset off = false := by
  have haddr := place_address a
  cases hplace : place a with
  | reserved => exact .inl rfl
  | trace k off =>
    have hk := k.isLt
    have hoff := off.isLt
    rw [hplace, placeAddress] at haddr
    refine .inr ⟨k, off, rfl, ?_⟩
    rw [← reservedTraceAddress_iff k off, ← haddr]
    unfold reservedAddress reservedTraceAddress at h
    unfold reservedTraceAddress
    omega
  | sbox v =>
    have hv := v.isLt
    rw [hplace, placeAddress] at haddr
    unfold reservedAddress reservedTraceAddress at h
    omega
  | _ =>
    rw [hplace] at haddr
    simp only [placeAddress] at haddr
    unfold reservedAddress reservedTraceAddress at h
    omega

/-! ### One turn of the host -/

theorem step_idle {s : State} (h : s.phase = .idle) : step s = hostTurn s := by
  simp [step, turn, h]

theorem step_busy {s : State} {p : Option Instr} {left : Nat} (h : s.phase = .busy p (left + 1)) :
    step s = hostTurn { s with phase := .busy p left } := by
  simp [step, turn, h]

theorem hostTurn_nil {s : State} (h : s.script = []) : hostTurn s = .next s := by
  rw [hostTurn, h]

theorem hostTurn_cons {s : State} {act : Action} {rest : List Action} (h : s.script = act :: rest) :
    hostTurn s = performAction act rest s := by
  rw [hostTurn, h]

theorem step_idle_cons {s : State} {act : Action} {rest : List Action} (hphase : s.phase = .idle)
    (hscript : s.script = act :: rest) : step s = performAction act rest s :=
  (step_idle hphase).trans (hostTurn_cons hscript)

theorem step_busy_cons {s : State} {p : Option Instr} {left : Nat} {act : Action} {rest : List Action}
    (hphase : s.phase = .busy p (left + 1)) (hscript : s.script = act :: rest) :
    step s = performAction act rest { s with phase := .busy p left } :=
  (step_busy hphase).trans (hostTurn_cons (s := { s with phase := .busy p left }) hscript)

theorem recordRead_of_ok {a : Addr} {b : Byte} {s u : State} (next : Byte → List Action)
    (h : hostRead a s = .ok (b, u)) :
    recordRead a next s = .next { u with reads := (a, b) :: u.reads, script := next b } := by
  rw [recordRead, h]

/-! ### STATUS -/

/-- Settles O6: the concatenation puts each field at its bits, for every value of the fields. -/
theorem statusByteHoldsItsFields : Obligations.StatusByteHoldsItsFields := by
  intro s
  unfold State.status
  generalize s.lastErr = code, s.errBusy = e, s.simValid = v, s.ekValid = k, s.isBusy = b
  revert code e v k b
  decide

theorem status_bit7 (s : State) : s.status.getLsbD 7 = false := by
  obtain ⟨-, -, -, -, -, hbit7⟩ := statusByteHoldsItsFields s
  exact hbit7

/-! ### Reserved addresses, and the busy lists -/

theorem hostRead_reserved (s : State) {a : Addr} (h : reservedAddress a.toNat) : hostRead a s = .ok (0x00, s) := by
  obtain hplace | ⟨k, off, hplace, hbare⟩ := place_of_reservedAddress h
  · exact hostRead_of_not_drawn s hplace rfl nofun
  · rw [hostRead_of_not_drawn s hplace hbare nofun, placeValue, traceEntryByte_of_not_ramBacked _ hbare]

/-- Settles O7: a reserved address has a place that is never drawn and holds 0x00. -/
theorem reservedAddressReadsZero : Obligations.ReservedAddressReadsZero :=
  fun s => ⟨fun _ => hostRead_reserved s, status_bit7 s⟩

theorem hostRead_drawn {s : State} {a : Addr} (hbusy : s.isBusy = true) (h : drawnAddress a.toNat) :
    hostRead a s = .ok (Config.busyRead s.draws, { s with draws := s.draws + 1 }) := by
  simp [hostRead, hbusy, (drawnAddress_iff a).mp h]

/-- A read that is no draw returns the byte at its address; the known code is for STATUS (log 10). -/
theorem hostRead_defined {s : State} {a : Addr} (hcode : s.lastErr ≤ 3)
    (h : (s.isBusy && drawnWhileBusy (place a)) = false) : hostRead a s = .ok (s.peek a, s) := by
  simp [hostRead, h, knownErrorCode_of_le hcode]

theorem hostRead_not_drawn {s : State} {a : Addr} (hcode : s.lastErr ≤ 3) (h : ¬ drawnAddress a.toNat) :
    hostRead a s = .ok (s.peek a, s) := by
  rw [drawnAddress_iff, Bool.not_eq_true] at h
  exact hostRead_defined hcode (by rw [h, Bool.and_false])

/-- A step of a busy engine with turns left, whose host action is a read. -/
theorem step_busy_read {s u : State} {a : Addr} {b : Byte} {p : Option Instr} {left : Nat} {rest : List Action}
    (hphase : s.phase = .busy p (left + 1)) (hscript : s.script = .read a :: rest)
    (hread : hostRead a { s with phase := .busy p left } = .ok (b, u)) :
    step s = .next { u with reads := (a, b) :: u.reads, script := rest } := by
  rw [step_busy_cons hphase hscript]
  exact recordRead_of_ok (fun _ => rest) hread

/-- The bit BUSY of STATUS, and STATUS itself, do not depend on the turns left. -/
theorem status_turn_used {s : State} {p : Option Instr} {left left' : Nat} (hphase : s.phase = .busy p left) :
    State.status { s with phase := .busy p left' } = s.status := by
  simp [State.status, State.isBusy, hphase]

/-- A WAIT of a busy engine with turns left reads STATUS, whose bit 0 is 1, and stays. -/
theorem step_busy_wait {s : State} {p : Option Instr} {left : Nat} {rest : List Action}
    (hphase : s.phase = .busy p (left + 1)) (hscript : s.script = .wait :: rest) (hcode : s.lastErr ≤ 3) :
    step s = .next { s with
      phase := .busy p left, script := .wait :: rest, reads := (0x000, s.status) :: s.reads } := by
  have hbit : s.status.getLsbD 0 = true := by rw [status_bit0, isBusy_eq_true hphase]
  have hread := hostRead_status (s := { s with phase := .busy p left }) (knownErrorCode_of_le hcode)
  rw [status_turn_used hphase] at hread
  rw [step_busy_cons hphase hscript, performAction, recordRead_of_ok _ hread, hbit]
  rfl

/-- What a busy engine shows at a place does not depend on the turns left. -/
theorem peek_turn_used {s : State} {p : Option Instr} {left left' : Nat} (hphase : s.phase = .busy p left) (a : Addr) :
    State.peek { s with phase := .busy p left' } a = s.peek a := by
  unfold State.peek
  cases place a with
  | status => exact status_turn_used hphase
  | _ => rfl

/-- Settles O8: the first list is the drawn places; every other read is defined; and a step records what its read
returns. -/
theorem busyReadsFollowTheTwoLists : Obligations.BusyReadsFollowTheTwoLists := by
  intro s a hbusy
  refine ⟨hostRead_drawn hbusy, fun hdefined hcode => hostRead_not_drawn hcode hdefined,
    fun hcode => hostRead_status (knownErrorCode_of_le hcode),
    hostRead_of_not_drawn s (p := .cmd) (by decide) rfl nofun,
    hostRead_of_not_drawn s (p := .traceCount) (by decide) rfl nofun,
    hostRead_of_not_drawn s (p := .ptPort) (by decide) rfl nofun,
    hostRead_of_not_drawn s (p := .keyPort) (by decide) rfl nofun, fun p left rest hphase => ⟨?_, ?_, ?_⟩⟩
  · intro hscript hdrawn
    exact step_busy_read hphase hscript (hostRead_drawn rfl hdrawn)
  · intro hscript hdefined hcode
    rw [step_busy_read hphase hscript (hostRead_not_drawn hcode hdefined), peek_turn_used hphase]
  · intro hscript hcode
    exact ⟨by rw [status_bit0, hbusy], step_busy_wait hphase hscript hcode⟩

/-! ### Reads while idle -/

theorem hostRead_idle {s : State} (hidle : s.isBusy = false) (hcode : s.lastErr ≤ 3) (a : Addr) :
    hostRead a s = .ok (s.peek a, s) :=
  hostRead_defined hcode (by rw [hidle, Bool.false_and])

theorem place_pt : ∀ i : Fin 16, place (BitVec.ofNat 12 (0x010 + i.val)) = .pt i := by decide

theorem place_key : ∀ i : Fin 16, place (BitVec.ofNat 12 (0x020 + i.val)) = .key i := by decide

theorem place_stateMatrix : ∀ r c : Fin 4,
    place (BitVec.ofNat 12 (0x030 + 4 * r.val + c.val)) = .stateMatrix r c := by decide

/-- The EK window is the 176 addresses from 0x300 (20_memory.md R61). -/
theorem place_ek (i : Fin 176) : place (BitVec.ofNat 12 (0x300 + i.val)) = .ek i := by
  have haddr : (BitVec.ofNat 12 (0x300 + i.val)).toNat = 0x300 + i.val := by
    rw [BitVec.toNat_ofNat]
    omega
  simp (disch := omega) only [place, haddr, if_neg, if_pos, dif_pos, Nat.add_sub_cancel_left]

/-- Settles O4: each register, buffer and window byte has its place in the address map, and an idle read gives the byte
of its place. -/
theorem registersAndBuffersReadAtTheirAddresses : Obligations.RegistersAndBuffersReadAtTheirAddresses := by
  intro s hidle hcode
  have read {a : Addr} {p : Place} (hplace : place a = p) (hstatus : p ≠ .status) :=
    hostRead_of_idle hidle hplace hstatus
  exact ⟨hostRead_status (knownErrorCode_of_le hcode), read (p := .cmd) (by decide) nofun,
    read (p := .ptPort) (by decide) nofun, read (p := .keyPort) (by decide) nofun,
    read (p := .ptLen) (by decide) nofun, read (p := .keyLen) (by decide) nofun, read (p := .gfA) (by decide) nofun,
    read (p := .gfB) (by decide) nofun, read (p := .gfRes) (by decide) nofun,
    read (p := .traceCount) (by decide) nofun, fun i => read (place_pt i) nofun, fun i => read (place_key i) nofun,
    fun r c => read (place_stateMatrix r c) nofun, fun i => read (place_ek i) nofun⟩

/-! ### The RAMs after a reset -/

/-- A window offset is the base of its window and its row-major index in it (20_memory.md R64). -/
theorem windowOffset_eq : ∀ (q : Fin 4) (off : BitVec 6), (off.extractLsb' 4 2).toNat = q.val →
    BitVec.ofNat 6 (16 * q.val) + BitVec.ofNat 6 (4 * (windowRow (off.extractLsb' 0 4)).val +
      (windowColumn (off.extractLsb' 0 4)).val) = off := by
  decide +kernel

/-- Each byte of an initial window is the draw of its own offset (70_reset_and_hazards.md R241). -/
theorem entry_initialWindow (n : Nat) (k : Fin 42) (q : Fin 4) {off : BitVec 6}
    (h : (off.extractLsb' 4 2).toNat = q.val) {base : BitVec 6} (hbase : base = BitVec.ofNat 6 (16 * q.val)) :
    entry (initialWindow n k base) (windowRow (off.extractLsb' 0 4))
      (windowColumn (off.extractLsb' 0 4)) = Config.traceInit n k off := by
  simp only [entry, initialWindow, get_ofFn, hbase, windowOffset_eq q off h]

/-- The byte at a RAM-backed offset of an entry after reset is the draw of that offset: a header byte, or a byte of the
S or the K window. -/
theorem traceEntryByte_initialTrace (n : Nat) (k : Fin 42) {off : BitVec 6} (h : ramBackedOffset off = true) :
    traceEntryByte ((initialTrace n).get k) off = Config.traceInit n k off := by
  rw [ramBackedOffset_iff] at h
  have hhigh : (off.extractLsb' 4 2).toNat = off.toNat / 16 := by
    rw [BitVec.extractLsb'_toNat]
    omega
  obtain hheader | ⟨hlo, hhi⟩ := h
  · obtain rfl | rfl | rfl | rfl : off = 0 ∨ off = 1 ∨ off = 2 ∨ off = 3 := by bv_omega
    all_goals
      rw [initialTrace, get_ofFn]
      rfl
  · obtain hq | hq : off.toNat / 16 = 1 ∨ off.toNat / 16 = 2 := by omega
    · have hwindow := entry_initialWindow n k 1 (hhigh.trans hq) (base := 0x10) rfl
      simpa only [traceEntryByte, hhigh, hq, initialTrace, get_ofFn] using hwindow
    · have hwindow := entry_initialWindow n k 2 (hhigh.trans hq) (base := 0x20) rfl
      simpa only [traceEntryByte, hhigh, hq, initialTrace, get_ofFn] using hwindow

/-- Settles O2: the reset block holds the draws numbered by the counter before it, in EK by index and in the trace by
offset. -/
theorem resetDrawsBothRamsAfresh : Obligations.ResetDrawsBothRamsAfresh := by
  refine fun rest s => ⟨_, performAction_reset rest s, rfl, rfl, fun i => get_ofFn _ i, fun k off hbacked => ?_⟩
  exact traceEntryByte_initialTrace s.draws k ((ramBackedOffset_iff off).mpr hbacked)

end Sys2Proof.Machine
end

section
/-! PROOFS. The host's script, turn by turn (30_encoding.md R96 to R98; 10_state.md R37; 60_exceptions.md R226): what each
line expands to, the acceptance of a command byte, and what an idle engine records. -/

namespace Sys2Proof.Machine

/-! ### Script lines -/

theorem cmdLine_of_assemble {m : Mnemonic} {n : Option Nat} {c : Byte} (h : assemble m n = some c) :
    expandLine (.CMD m n) = some [.write 0x001 c] ∧ expandLine (.DO m n) = some [.write 0x001 c, .wait] := by
  simp [expandLine, expandCmd, h, cmdAddr]

theorem cmdLine_of_refused {m : Mnemonic} {n : Option Nat} (h : assemble m n = none) :
    expandLine (.CMD m n) = none ∧ expandLine (.DO m n) = none := by
  simp [expandLine, expandCmd, h]

/-- The writes of a block to a port, by byte index (30_encoding.md R98). -/
theorem expandPut_eq_ofFn (port : Addr) (b : Block) :
    expandPut port b = List.ofFn fun i : Fin 16 => .write port (b.get i) := by
  apply List.ext_getElem
  · simp [expandPut]
  · intro i _ _
    simp only [expandPut, List.getElem_map, Vector.getElem_toList, List.getElem_ofFn, Vector.get_eq_getElem]

/-- The reads of READM, by the list of their addresses (30_encoding.md R98; log 18). -/
theorem expandReadm_eq_map_ofFn (base : Addr) :
    expandReadm base = (List.ofFn fun i : Fin 16 => base + BitVec.ofNat 12 i.val).map .read := by
  apply List.ext_getElem
  · simp [expandReadm]
  · intro i _ _
    simp only [expandReadm, List.getElem_map, List.getElem_range, List.getElem_ofFn]

/-- The reads of READM, by row and column. -/
theorem expandReadm_getElem? (base : Addr) (r c : Fin 4) :
    (expandReadm base)[4 * r.val + c.val]? = some (.read (base + BitVec.ofNat 12 (4 * r.val + c.val))) := by
  have hrange : 4 * r.val + c.val < 16 := by omega
  simp [expandReadm, List.getElem?_range hrange]

theorem expandScript_cons_iff (line : ScriptLine) (rest : List ScriptLine) (acts : List Action) :
    expandScript (line :: rest) = some acts ↔
      ∃ first more, expandLine line = some first ∧ expandScript rest = some more ∧ acts = first ++ more := by
  simp only [expandScript, Option.bind_eq_some_iff, Option.map_eq_some_iff]
  constructor
  · rintro ⟨first, hfirst, more, hmore, rfl⟩
    exact ⟨first, more, hfirst, hmore, rfl⟩
  · rintro ⟨first, more, hfirst, hmore, rfl⟩
    exact ⟨first, hfirst, more, hmore, rfl⟩

/-- Settles O18: each line by its own expansion, and a script by joining those of its lines. -/
theorem scriptLinesExpandToTheirActions : Obligations.ScriptLinesExpandToTheirActions :=
  ⟨fun _ _ => ⟨rfl, rfl, rfl⟩, fun _ => rfl, rfl, fun _ _ _ => cmdLine_of_assemble, fun _ _ => cmdLine_of_refused,
    fun b => ⟨congrArg some (expandPut_eq_ofFn ptPortAddr b), congrArg some (expandPut_eq_ofFn keyPortAddr b)⟩,
    fun base => ⟨_, rfl, by simp [expandReadm], expandReadm_getElem? base⟩, rfl, expandScript_cons_iff⟩

/-! ### The step and the acceptance -/

theorem step_due {s : State} {i : Instr} (h : s.phase = .busy (some i) 0) : step s = exec i s := by
  simp [step, turn, h, completeCommand]

theorem withFetchWord_byte (s : State) (c : Byte) : s.withFetchWord 8 c.toNat = beginCommand c 0 s := by
  rw [State.withFetchWord, Nat.mod_eq_of_lt c.isLt, BitVec.ofNat_toNat, BitVec.setWidth_eq]

theorem legalCommand_of_decodeByte {c : Byte} {i : Instr} (h : decodeByte c = .ok i) : legalCommand c = some i := by
  rw [legalCommand, h]
  rfl

/-- Settles O20: an accepted byte with no turn left is due, and the step by the phase. -/
theorem stepRunsTheDecodedCommand : Obligations.StepRunsTheDecodedCommand := by
  refine ⟨fun s c i h => ?_, fun _ _ => step_due, fun _ => step_of_illegal_pending, fun _ _ _ => step_busy,
    fun _ => step_idle⟩
  have hphase : (beginCommand c 0 s).phase = .busy (some i) 0 := by
    rw [beginCommand_phase, legalCommand_of_decodeByte h]
  rw [withFetchWord_byte]
  exact ⟨rfl, step_due hphase⟩

/-- RUN and CLEAR invalidate the Simulation (10_state.md R37). -/
theorem invalidatesSimulation_iff (p : Option Instr) :
    invalidatesSimulation p = true ↔ p = some .run ∨ p = some .clear := by
  cases p with
  | none => decide
  | some i => cases i <;> simp [invalidatesSimulation]

theorem clearsErrBusy_iff (p : Option Instr) : clearsErrBusy p = true ↔ p = some .clear := by
  cases p with
  | none => decide
  | some i => cases i <;> simp [clearsErrBusy]

/-- The acceptance actions by the byte itself: 0x90 is RUN, 0x10 is CLEAR (30_encoding.md R92). -/
theorem beginCommand_eq (c : Byte) (left : Nat) (s : State) :
    beginCommand c left s = { s with
      cmd := c
      simValid := if c = 0x90 ∨ c = 0x10 then false else s.simValid
      traceCount := if c = 0x90 ∨ c = 0x10 then 0 else s.traceCount
      errBusy := if c = 0x10 then false else s.errBusy
      phase := .busy (legalCommand c) left } := by
  simp only [beginCommand, invalidatesSimulation_iff, clearsErrBusy_iff, legalCommand_eq_run, legalCommand_eq_clear]

/-- Settles O21: an idle write of CMD is the acceptance, whose turns are one draw of the latency. -/
theorem writeToCmdIsAccepted : Obligations.WriteToCmdIsAccepted := by
  intro s c rest hidle hscript
  have hwrite : hostWrite cmdAddr c { s with script := rest } = acceptCommand c { s with script := rest } :=
    hostWrite_of_idle (s := { s with script := rest }) c (isBusy_eq_false hidle) place_cmd
  refine ⟨Config.freeLatency c s.draws, rfl, (step_idle_cons hidle hscript).trans (congrArg _ (hwrite.trans ?_))⟩
  rw [acceptCommand, beginCommand_eq]

/-! ### Reads of an idle engine -/

theorem step_idle_read {s : State} {a : Addr} {rest : List Action} (hidle : s.phase = .idle)
    (hscript : s.script = .read a :: rest) (hread : hostRead a s = .ok (s.peek a, s)) :
    step s = .next { s with script := rest, reads := (a, s.peek a) :: s.reads } :=
  (step_idle_cons hidle hscript).trans (recordRead_of_ok (fun _ => rest) hread)

theorem status_bit0_of_idle {s : State} (hidle : s.phase = .idle) : s.status.getLsbD 0 = false := by
  rw [status_bit0, isBusy_eq_false hidle]

theorem step_idle_wait {s : State} {rest : List Action} (hidle : s.phase = .idle) (hcode : s.lastErr ≤ 3)
    (hscript : s.script = .wait :: rest) :
    step s = .next { s with script := rest, reads := (0x000, s.status) :: s.reads } := by
  rw [step_idle_cons hidle hscript, performAction,
    recordRead_of_ok _ (hostRead_status (knownErrorCode_of_le hcode)), status_bit0_of_idle hidle]
  rfl

/-- Settles O22: by the head of the script, a step of an idle engine changes nothing or the host's side alone. -/
theorem idleEngineKeepsItsState : Obligations.IdleEngineKeepsItsState := by
  intro s hidle hcode hhead
  have hnil (hscript : s.script = []) : step s = .next s := (step_idle hidle).trans (hostTurn_nil hscript)
  have hread (a : Addr) (rest : List Action) (hscript : s.script = .read a :: rest) :=
    step_idle_read hidle hscript (hostRead_idle (isBusy_eq_false hidle) hcode a)
  have hwait (rest : List Action) (hscript : s.script = .wait :: rest) := step_idle_wait hidle hcode hscript
  refine ⟨?_, hnil, hread, fun rest hscript => ⟨status_bit0_of_idle hidle, hwait rest hscript⟩⟩
  obtain hscript | ⟨a, rest, hscript⟩ | ⟨rest, hscript⟩ := hhead
  · exact ⟨_, hnil hscript, by constructor <;> rfl, rfl, hidle⟩
  · exact ⟨_, hread a rest hscript, by constructor <;> rfl, rfl, hidle⟩
  · exact ⟨_, hwait rest hscript, by constructor <;> rfl, rfl, hidle⟩

/-! ### READM -/

/-- Beside STATUS, the byte at a place is a register, a buffer or a RAM of the block. -/
theorem placeValue_of_sameEngine {s t : State} (h : SameEngine s t) {p : Place} (hp : p ≠ .status) :
    placeValue t p = placeValue s p := by
  cases p with
  | status => exact absurd rfl hp
  | cmd => exact h.cmd
  | ptLen => exact h.ptLen
  | keyLen => exact h.keyLen
  | gfA => exact h.gfA
  | gfB => exact h.gfB
  | gfRes => exact h.gfRes
  | traceCount => exact h.traceCount
  | pt i => exact congrArg (·.get i) h.pt
  | key i => exact congrArg (·.get i) h.key
  | stateMatrix r c => exact congrArg (entry · r c) h.stateMatrix
  | ek i => exact congrArg (·.get i) h.ek
  | trace k off => exact congrArg (fun trace => traceEntryByte (trace.get k) off) h.trace
  | ptPort | keyPort | sbox v | rcon i | reserved => rfl

/-- The reads of a list of addresses, none of them STATUS, by an idle block: each takes a step, and each records the
byte that the block held at the start. -/
theorem run_reads (addrs : List Addr) {s : State} (hidle : s.phase = .idle) (hplaces : ∀ a ∈ addrs, place a ≠ .status) :
    Host.Core.run Sys2Proof.core addrs.length (s.withScript (addrs.map .read)) = .next { s with
      script := [], reads := (addrs.map fun a => (a, s.peek a)).reverse ++ s.reads } := by
  induction addrs generalizing s with
  | nil => rfl
  | cons a addrs ih =>
    rw [List.forall_mem_cons] at hplaces
    obtain ⟨hplace, hplaces⟩ := hplaces
    have hread := hostRead_of_idle (s := s.withScript (.read a :: addrs.map .read)) (isBusy_eq_false hidle) rfl hplace
    have hstep := step_idle_read (s := s.withScript (.read a :: addrs.map .read)) hidle rfl hread
    have hkept : ∀ b ∈ addrs, State.peek { s with reads := (a, s.peek a) :: s.reads } b = s.peek b := fun b hb =>
      placeValue_of_sameEngine (by constructor <;> rfl) (hplaces b hb)
    have hbyte : (s.withScript (.read a :: addrs.map .read)).peek a = s.peek a :=
      placeValue_of_sameEngine (by constructor <;> rfl) hplace
    rw [hbyte] at hstep
    rw [List.length_cons, List.map_cons, run_succ_of_step _ hstep]
    refine (ih (s := { s with reads := (a, s.peek a) :: s.reads }) hidle hplaces).trans ?_
    rw [List.map_congr_left fun b hb => congrArg (Prod.mk b) (hkept b hb)]
    simp

/-- The bytes from `base` on are the matrix `m`, row-major (20_memory.md R64), and STATUS is not among them. -/
def MatrixAt (s : State) (base : Addr) (m : StateMatrix) : Prop :=
  ∀ r c : Fin 4, place (base + BitVec.ofNat 12 (4 * r.val + c.val)) ≠ .status ∧
    s.peek (base + BitVec.ofNat 12 (4 * r.val + c.val)) = entry m r c

/-- READM's report of a window is the flattening of the matrix in it (30_encoding.md R98). -/
theorem MatrixAt.report {s : State} {base : Addr} {m : StateMatrix} (h : MatrixAt s base m) :
    readmReport (Vector.ofFn fun i => s.peek (base + BitVec.ofNat 12 i.val)) = fromMatrix m := by
  refine congrArg fromMatrix (matrix_ext fun r c => ?_)
  rw [entry_matrixOf, get_ofFn]
  exact (h r c).2

/-- The report, each address as one sum. -/
theorem MatrixAt.report_sum {s : State} {n : Nat} {m : StateMatrix} (h : MatrixAt s (BitVec.ofNat 12 n) m) :
    readmReport (Vector.ofFn fun i => s.peek (BitVec.ofNat 12 (n + i.val))) = fromMatrix m := by
  simp only [BitVec.ofNat_add]
  exact h.report

theorem MatrixAt.place_ne_status {s : State} {base : Addr} {m : StateMatrix} (h : MatrixAt s base m) (i : Fin 16) :
    place (base + BitVec.ofNat 12 i.val) ≠ .status := by
  have hplace := (h ⟨i.val / 4, by omega⟩ ⟨i.val % 4, by omega⟩).1
  rwa [Nat.div_add_mod] at hplace

theorem MatrixAt.readmGives {s : State} {base : Addr} {m : StateMatrix} (h : MatrixAt s base m)
    (hidle : s.phase = .idle) : ReadmGives s base m := by
  refine ⟨Vector.ofFn fun i => s.peek (base + BitVec.ofNat 12 i.val), ?_, fun i => get_ofFn _ i, h.report⟩
  have hrun := run_reads (List.ofFn fun i : Fin 16 => base + BitVec.ofNat 12 i.val) hidle
    ((List.forall_mem_ofFn_iff ..).mpr h.place_ne_status)
  rw [List.length_ofFn, ← expandReadm_eq_map_ofFn] at hrun
  rw [hrun, List.map_ofFn]
  simp only [get_ofFn]
  rfl

theorem matrixAt_stateMatrix (s : State) : MatrixAt s 0x030 s.stateMatrix := by
  intro r c
  have hplace : place (0x030 + BitVec.ofNat 12 (4 * r.val + c.val)) = .stateMatrix r c := by
    rw [← place_stateMatrix r c, Nat.add_assoc, BitVec.ofNat_add 0x030]
    rfl
  exact ⟨by rw [hplace]; nofun, by rw [State.peek, hplace, placeValue]⟩

/-- A window of trace entry `k`: the 16 offsets from 16 times its number on (20_memory.md R63). -/
theorem matrixAt_trace (s : State) (k : Fin 42) {q : Nat} (hq : q < 4) {m : StateMatrix}
    (hwindow : ∀ r c : Fin 4,
      traceEntryByte (s.trace.get k) (BitVec.ofNat 6 (16 * q + (4 * r.val + c.val))) = entry m r c) :
    MatrixAt s (BitVec.ofNat 12 (0x400 + 64 * k.val + 16 * q)) m := by
  intro r c
  have hplace : place (BitVec.ofNat 12 (0x400 + 64 * k.val + 16 * q) + BitVec.ofNat 12 (4 * r.val + c.val)) =
      .trace k (BitVec.ofNat 6 (16 * q + (4 * r.val + c.val))) := by
    rw [← BitVec.ofNat_add, Nat.add_assoc, place_trace k (by omega)]
  exact ⟨by rw [hplace]; nofun, by rw [State.peek, hplace, placeValue, hwindow]⟩

theorem matrixAt_sWindow (s : State) (k : Fin 42) :
    MatrixAt s (BitVec.ofNat 12 (0x410 + 64 * k.val)) (s.trace.get k).s := by
  rw [show 0x410 + 64 * k.val = 0x400 + 64 * k.val + 16 * 1 by omega]
  exact matrixAt_trace s k (by decide) (traceEntryByte_sWindow (s.trace.get k))

theorem matrixAt_kWindow (s : State) (k : Fin 42) :
    MatrixAt s (BitVec.ofNat 12 (0x420 + 64 * k.val)) (s.trace.get k).k := by
  rw [show 0x420 + 64 * k.val = 0x400 + 64 * k.val + 16 * 2 by omega]
  exact matrixAt_trace s k (by decide) (traceEntryByte_kWindow (s.trace.get k))

/-- Settles O17: the three windows hold their matrices row-major, and reading a window in address order reports the
matrix it holds. -/
theorem readmReportsTheFlatMatrix : Obligations.ReadmReportsTheFlatMatrix := by
  intro s k
  have hstate := matrixAt_stateMatrix s
  have hs := matrixAt_sWindow s k
  have hk := matrixAt_kWindow s k
  exact ⟨fun hidle => ⟨hstate.readmGives hidle, hs.readmGives hidle, hk.readmGives hidle⟩, hstate.report_sum,
    hs.report_sum, hk.report_sum⟩

end Sys2Proof.Machine
end

section
/-! PROOFS. The field GF(2⁸) and the S-box (40_primitives.md R110 to R113): associativity is a law of three linear
factors, so single bits decide; and the S-box entry of a byte, its affine map undone, is the byte's inverse. -/

namespace Sys2Proof.Machine

theorem gmul_assoc_bits : ∀ i j k : Fin 8,
    gmul (gmul (BitVec.twoPow 8 i) (BitVec.twoPow 8 j)) (BitVec.twoPow 8 k) =
      gmul (BitVec.twoPow 8 i) (gmul (BitVec.twoPow 8 j) (BitVec.twoPow 8 k)) := by
  decide +kernel

/-- Both sides are linear in each factor, so single bits decide. -/
theorem gmul_assoc (a b c : Byte) : gmul (gmul a b) c = gmul a (gmul b c) := by
  induction a using byte_xor_induction with
  | zero => simp
  | xor a a' ha ha' => simp only [gmul_xor_left, ha, ha']
  | bit i =>
    induction b using byte_xor_induction with
    | zero => simp
    | xor b b' hb hb' => simp only [gmul_xor_left, gmul_xor_right, hb, hb']
    | bit j =>
      induction c using byte_xor_induction with
      | zero => simp
      | xor c c' hc hc' => simp only [gmul_xor_right, hc, hc']
      | bit k => exact gmul_assoc_bits i j k

/-- The inverse of the S-box's affine map (40_primitives.md R112), written with rotations. -/
def affineInverse (x : Byte) : Byte := x.rotateLeft 1 ^^^ x.rotateLeft 3 ^^^ x.rotateLeft 6 ^^^ 0x05

/-- The map of R112 undoes `affineInverse`, bit by bit. -/
theorem getLsbD_of_affineInverse : ∀ (x : Byte) (i : Fin 8),
    x.getLsbD i.val = ((affineInverse x).getLsbD i.val ^^ (affineInverse x).getLsbD ((i.val + 4) % 8) ^^
      (affineInverse x).getLsbD ((i.val + 5) % 8) ^^ (affineInverse x).getLsbD ((i.val + 6) % 8) ^^
      (affineInverse x).getLsbD ((i.val + 7) % 8) ^^ (0x63 : Byte).getLsbD i.val) := by
  decide +kernel

/-- The field inverse of a byte, read back from its entry of the S-box table; 0 for 0. -/
def fieldInverse (v : Byte) : Byte := affineInverse (sbox v)

/-- The table entry by entry: what the affine map was applied to is the inverse (40_primitives.md R112). -/
theorem gmul_fieldInverse : ∀ v : Byte, v ≠ 0#8 → gmul v (fieldInverse v) = 1#8 := by decide +kernel

theorem fieldInverse_zero : fieldInverse 0 = 0 := by decide

/-- Settles O37: associativity by linearity in the three factors, the inverse from the S-box table, and the laws of R111. -/
theorem gmulMakesTheBytesAField : Obligations.GmulMakesTheBytesAField :=
  ⟨fun a => ⟨gmul_one_right a, gmul_one_left a⟩, gmul_comm, gmul_assoc, gmul_xor_right,
    fun a ha => ⟨fieldInverse a, gmul_fieldInverse a ha⟩⟩

/-- Inverses are unique: `y = y (v v⁻¹) = (v y) v⁻¹ = v⁻¹`. -/
theorem eq_fieldInverse {v y : Byte} (h : gmul v y = 1#8) : y = fieldInverse v := by
  have hv : v ≠ 0#8 := by
    rintro rfl
    rw [gmul_zero_left] at h
    cases h
  calc y = gmul y (gmul v (fieldInverse v)) := by rw [gmul_fieldInverse v hv, gmul_one_right]
    _ = gmul (gmul v y) (fieldInverse v) := by rw [← gmul_assoc, gmul_comm y v]
    _ = fieldInverse v := by rw [h, gmul_one_left]

/-- Settles O38: inverses are unique, so the construction starts from the byte whose affine map the table holds. -/
theorem sboxIsTheAffineMapOfTheInverse : Obligations.SboxIsTheAffineMapOfTheInverse := by
  intro v y h i
  have hy : y = fieldInverse v := by
    obtain ⟨rfl, rfl⟩ | h := h
    · exact fieldInverse_zero.symm
    · exact eq_fieldInverse h
  rw [hy]
  exact getLsbD_of_affineInverse (sbox v) i

theorem sbox_ne_self : ∀ v : Byte, sbox v ≠ v := by decide +kernel

/-- Settles O39: the ROM window of the S-box, three entries, and a search of the table for fixed points. -/
theorem subByteReadsTheTableWithoutFixedPoint : Obligations.SubByteReadsTheTableWithoutFixedPoint :=
  ⟨hostRead_sbox, by decide, by decide, by decide, sbox_ne_self⟩

end Sys2Proof.Machine
end

section
/-! PROOFS. The byte loop of the key schedule (41_key_schedule.md R130): each turn appends the next word of the word view
(R133), so after its 40 turns the bytes are those of the 44 words. -/

namespace Sys2Proof.Machine

/-! ### The words of a key under construction -/

/-- Word `m` of an expanded key under construction. -/
def wordAt (e : ExpandedKey) (m : Nat) : KeyWord :=
  ⟨byteAt e (4 * m), byteAt e (4 * m + 1), byteAt e (4 * m + 2), byteAt e (4 * m + 3)⟩

/-- The four stores of a turn of the loop. -/
def storeWord (e : ExpandedKey) (i : Nat) (w : KeyWord) : ExpandedKey :=
  (((e.setIfInBounds i w.b0).setIfInBounds (i + 1) w.b1).setIfInBounds (i + 2) w.b2).setIfInBounds (i + 3) w.b3

theorem byteAt_eq_get (e : ExpandedKey) {i : Nat} (h : i < 176) : byteAt e i = e.get ⟨i, h⟩ := by
  simp [byteAt, Vector.getD, h, Vector.get_eq_getElem]

theorem byteAt_set_same (e : ExpandedKey) {i : Nat} (v : Byte) (h : i < 176) :
    byteAt (e.setIfInBounds i v) i = v := by
  simp [byteAt_eq_get _ h, Vector.get_eq_getElem]

theorem byteAt_set_ne (e : ExpandedKey) {i j : Nat} (v : Byte) (h : i ≠ j) :
    byteAt (e.setIfInBounds i v) j = byteAt e j := by
  by_cases hj : j < 176
  · simp [byteAt_eq_get _ hj, Vector.get_eq_getElem, Vector.getElem_setIfInBounds_ne, h]
  · simp [byteAt, Vector.getD, hj]

theorem wordAt_storeWord_same (e : ExpandedKey) {n : Nat} (w : KeyWord) (h : n < 44) :
    wordAt (storeWord e (4 * n) w) n = w := by
  simp (disch := omega) only [wordAt, storeWord, byteAt_set_same, byteAt_set_ne]

theorem wordAt_storeWord_of_lt (e : ExpandedKey) {m n : Nat} (w : KeyWord) (h : m < n) :
    wordAt (storeWord e (4 * n) w) m = wordAt e m := by
  simp (disch := omega) only [wordAt, storeWord, byteAt_set_ne]

/-! ### The loop -/

/-- The turn at byte offset `4n` stores the word that R133 gives from the words `n - 4` and `n - 1`, if the counter is at
the number of the boundary; it counts the boundaries. -/
theorem byteLoopTurn_eq (e : ExpandedKey) {n rc : Nat} (hn : 4 ≤ n) (hrc : n % 4 = 0 → rc = n / 4) :
    byteLoopTurn (e, rc) (4 * n) =
      (storeWord e (4 * n) (xorWord (wordAt e (n - 4)) (scheduleTransform n (wordAt e (n - 1)))),
        if n % 4 = 0 then rc + 1 else rc) := by
  have hboundary : 4 * n % 16 = 0 ↔ n % 4 = 0 := by omega
  have hold : (⟨byteAt e (4 * n - 16), byteAt e (4 * n - 15), byteAt e (4 * n - 14), byteAt e (4 * n - 13)⟩ : KeyWord) =
      wordAt e (n - 4) := by
    obtain ⟨m, rfl⟩ := Nat.exists_eq_add_of_le' hn
    rfl
  have hprevious : (⟨byteAt e (4 * n - 4), byteAt e (4 * n - 3), byteAt e (4 * n - 2), byteAt e (4 * n - 1)⟩ : KeyWord) =
      wordAt e (n - 1) := by
    obtain ⟨m, rfl⟩ := Nat.exists_eq_add_of_le' hn
    rfl
  simp only [byteLoopTurn, hboundary, hold, hprevious, storeWord, scheduleTransform]
  by_cases h : n % 4 = 0
  · simp only [h, if_true, hrc h]
  · simp only [h, if_false]

/-- After the words below `n`: those words are the schedule's, and the counter is at the next boundary's number. -/
def LoopAt (key : Block) (n : Nat) (acc : ExpandedKey × Nat) : Prop :=
  (∀ m < n, wordAt acc.1 m = scheduleWord key m) ∧ acc.2 = (n + 3) / 4

theorem LoopAt.turn {key : Block} {n : Nat} {acc : ExpandedKey × Nat} (h : LoopAt key n acc) (hlo : 4 ≤ n)
    (hhi : n < 44) : LoopAt key (n + 1) (byteLoopTurn acc (4 * n)) := by
  obtain ⟨e, rc⟩ := acc
  obtain ⟨hwords, hrc⟩ := h
  simp only at hwords hrc
  rw [byteLoopTurn_eq e hlo (by omega), hwords (n - 4) (by omega), hwords (n - 1) (by omega),
    ← scheduleWord_of_four_le key hlo]
  refine ⟨fun m hm => ?_, ?_⟩
  · obtain hlt | rfl := Nat.lt_succ_iff_lt_or_eq.mp hm
    · rw [wordAt_storeWord_of_lt e _ hlt, hwords m hlt]
    · exact wordAt_storeWord_same e _ hhi
  · dsimp only
    split <;> omega

/-- The loop starts from the key, whose words are the first four of the schedule. -/
theorem loopAt_start (key : Block) : LoopAt key 4 (Vector.ofFn fun i => key.getD i.val 0x00, 1) := by
  refine ⟨fun m hm => ?_, rfl⟩
  rw [scheduleWord_of_lt_four key ⟨m, hm⟩]
  have hbyte {i : Nat} (hi : i < 16) :
      byteAt (Vector.ofFn fun j : Fin 176 => key.getD j.val 0x00) i = key.get ⟨i, hi⟩ := by
    simp [byteAt_eq_get _ (Nat.lt_trans hi (by decide)), Vector.getD, hi, Vector.get_eq_getElem]
  simp (disch := omega) only [wordAt, cipherKeyWord, hbyte]

theorem loopAt_turns (key : Block) {acc : ExpandedKey × Nat} (h : LoopAt key 4 acc) (k : Nat) (hk : k ≤ 40) :
    LoopAt key (4 + k) ((List.range' 16 k 4).foldl byteLoopTurn acc) := by
  induction k with
  | zero => exact h
  | succ k ih =>
    rw [List.range'_concat, List.foldl_append, show 16 + 4 * k = 4 * (4 + k) by omega]
    exact (ih (by omega)).turn (by omega) (by omega)

/-- A key whose 44 words are the schedule's is the expanded key. -/
theorem eq_expandKey_of_words {key : Block} {e : ExpandedKey} (h : ∀ m < 44, wordAt e m = scheduleWord key m) :
    e = expandKey key := by
  apply bytes_ext
  intro i
  have hword (r : Fin 4) : wordByte (wordAt e (i.val / 4)) r = byteAt e (4 * (i.val / 4) + r.val) := by
    fin_cases r <;> rfl
  rw [expandKey_get key (n := i.val / 4) (r := ⟨i.val % 4, by omega⟩) (Nat.div_add_mod _ _).symm,
    ← h (i.val / 4) (by omega), hword, Nat.div_add_mod, byteAt_eq_get e i.isLt]

/-- Settles O42: the loop keeps the words below its offset equal to the schedule's, and ends at 44 words. -/
theorem byteLoopGivesTheExpandedKey : Obligations.ByteLoopGivesTheExpandedKey := by
  intro key
  obtain ⟨hwords, -⟩ := loopAt_turns key (loopAt_start key) 40 (by decide)
  exact eq_expandKey_of_words hwords

end Sys2Proof.Machine
end

section
/-! PROOFS. Laws of the transformations (42_transforms.md R146 to R148), and the chain of the trace (43_sequencer.md R172,
R174): each entry is one step of the schedule after the entry before it. -/

namespace Sys2Proof.Machine

/-! ### The transformations -/

theorem shiftRows_four (m : StateMatrix) : shiftRows (shiftRows (shiftRows (shiftRows m))) = m := by
  apply matrix_ext
  intro r c
  have hturn : ∀ r c : Fin 4, c + r + r + r + r = c := by decide
  simp only [entry_shiftRows, hturn]

theorem addRoundKey_twice (m k : StateMatrix) : addRoundKey (addRoundKey m k) k = m := by
  apply matrix_ext
  intro r c
  rw [entry_addRoundKey, entry_addRoundKey, BitVec.xor_assoc, BitVec.xor_self, BitVec.xor_zero]

/-- The coefficients of a row of the MixColumns matrix are 2, 3, 1, 1, whose sum is 1: `3 v = 2 v ^ v`. -/
theorem mixColumn_const (v : Byte) (r : Fin 4) : mixColumn v v v v r = v := by
  have hcancel (x : Byte) : x ^^^ (x ^^^ v) = v := by rw [← BitVec.xor_assoc, BitVec.xor_self, BitVec.zero_xor]
  fin_cases r
  all_goals
    simp only [mixColumn, gmul_three_left]
    generalize gmul 2 v = d
    calc _ = d ^^^ (d ^^^ v) ^^^ (v ^^^ v) := by ac_rfl
      _ = v := by rw [hcancel, BitVec.xor_self, BitVec.xor_zero]

/-- Settles O44: the row shifts add up to a whole turn, XOR cancels, and the coefficients of MixColumns sum to 1. -/
theorem transformsUndoThemselves : Obligations.TransformsUndoThemselves := by
  refine ⟨shiftRows_four, addRoundKey_twice, fun m c v hcolumn r => ?_⟩
  rw [entry_mixColumns, hcolumn 0, hcolumn 1, hcolumn 2, hcolumn 3, mixColumn_const]

/-! ### The chain of the trace -/

/-- A step of the schedule is the operation that its entry's KIND and K field name. -/
theorem applyStep_eq_matrixAfterKind (ek : ExpandedKey) (k : Nat) (st : ScheduleStep) (m out : StateMatrix) :
    applyStep ek st m = matrixAfterKind (traceEntry ek k st out).kind (traceEntry ek k st out).k m := by
  obtain ⟨round, kind⟩ := st
  cases kind <;> rfl

theorem matrixAfter_take_succ (ek : ExpandedKey) (m : StateMatrix) (steps : List ScheduleStep) {j : Nat}
    (h : j < steps.length) :
    matrixAfter ek (steps.take (j + 1)) m = applyStep ek steps[j] (matrixAfter ek (steps.take j) m) := by
  rw [← List.take_concat_get' steps j h, matrixAfter_append]
  rfl

/-- Entry `k + 1` is one step of the schedule after entry `k`. -/
theorem simulationTrace_s_succ (ek : ExpandedKey) (m : StateMatrix) (k : Fin 41) :
    ((simulationTrace ek m).get k.succ).s =
      matrixAfterKind ((simulationTrace ek m).get k.succ).kind ((simulationTrace ek m).get k.succ).k
        ((simulationTrace ek m).get k.castSucc).s := by
  have hin : k.val + 1 < schedule.length := by rw [schedule_length]; omega
  rw [simulationTrace_get, simulationTrace_get ek m k.castSucc, ← applyStep_eq_matrixAfterKind]
  exact matrixAfter_take_succ ek m schedule hin

/-- Settles O46: the first step of the schedule is INITIAL, and each later entry is one step after the one before. -/
theorem eachTraceEntryFollowsFromTheOneBefore : Obligations.EachTraceEntryFollowsFromTheOneBefore :=
  fun pt key => ⟨simulationTrace_s_of_take (expandKey key) (toMatrix pt) 0 rfl,
    simulationTrace_s_succ (expandKey key) (toMatrix pt)⟩

/-! ### The counts of the kinds -/

/-- The kind and the round of an entry, as the trace RAM holds them. -/
def kindAndRound (e : TraceEntry) : Byte × Byte := (e.kind, e.round)

theorem map_kindAndRound_runSteps (ek : ExpandedKey) (steps : List ScheduleStep) (k : Nat) (m : StateMatrix) :
    (runSteps ek steps k m).map kindAndRound =
      steps.map fun st => (stepKindCode st.kind, BitVec.ofNat 8 st.round.val) := by
  induction steps generalizing k m with
  | nil => rfl
  | cons st rest ih => exact congrArg (_ :: ·) (ih ..)

/-- A choice of trace entries by kind and round is a choice of steps of the schedule. -/
theorem filter_simulationTrace (ek : ExpandedKey) (m : StateMatrix) (chosen : Byte × Byte → Bool) :
    ((simulationTrace ek m).toList.filter fun e => chosen (kindAndRound e)).map kindAndRound =
      (schedule.map fun st => (stepKindCode st.kind, BitVec.ofNat 8 st.round.val)).filter chosen := by
  rw [← map_kindAndRound_runSteps ek schedule 0 m, List.filter_map]
  rfl

/-- Settles O47: the kinds and rounds of the entries are those of the schedule, a fixed list. -/
theorem traceCountsItsKinds : Obligations.TraceCountsItsKinds := by
  intro pt key
  have choose := filter_simulationTrace (expandKey key) (toMatrix pt)
  refine ⟨Vector.length_toList .., ?_, ?_, ?_⟩
  · exact (List.length_map ..).symm.trans (congrArg List.length (choose fun x => x.1 = 3))
  · exact (List.length_map ..).symm.trans (congrArg List.length (choose fun x => x.1 = 4))
  · exact List.map_eq_nil_iff.mp (choose fun x => x.1 = 3 ∧ x.2 = 10)

end Sys2Proof.Machine
end

section
/-! PROOFS. What each part of the machine leaves alone: a command the bytes outside its operands (20_memory.md R61), a turn
of the host the trace RAM, LAST_ERR and, but for the busy writes and the acceptance of CLEAR, ERR_BUSY (43_sequencer.md
R178; 60_exceptions.md R216, R219). -/

namespace Sys2Proof.Machine

/-! ### The bytes outside a command's operands -/

/-- Beside STATUS no place holds the outcome code or the phase. -/
theorem placeValue_completeWith (code : BitVec 3) (s : State) {p : Place} (hstatus : p ≠ .status) :
    placeValue (completeWith code s) p = placeValue s p := by
  cases p with
  | status => exact absurd rfl hstatus
  | _ => rfl

/-- Five commands write STATE and nothing else, at 0x030 to 0x03F. -/
theorem placeValue_withStateMatrix (s : State) (m : StateMatrix) {p : Place} {a : Nat} (haddr : placeAddress p a)
    (hout : ¬ (0x030 ≤ a ∧ a ≤ 0x03F)) : placeValue { s with stateMatrix := m } p = placeValue s p := by
  cases p with
  | stateMatrix r c =>
    simp only [placeAddress] at haddr
    omega
  | _ => rfl

/-- A place outside the written operands holds what it held; the cases that a command writes are at its addresses. -/
theorem CommandWrites.placeValue_eq {i : Instr} {s u : State} (h : CommandWrites i s u) {p : Place} {a : Nat}
    (hstatus : p ≠ .status) (haddr : placeAddress p a) (hout : ¬ writtenBy i a) : placeValue u p = placeValue s p := by
  cases i with
  | nop => cases h; rfl
  | subb | shfr | mixc => cases h; exact placeValue_withStateMatrix s _ haddr hout
  | load => obtain ⟨-, rfl⟩ := h; exact placeValue_withStateMatrix s _ haddr hout
  | ark n => obtain ⟨-, -, rfl⟩ := h; exact placeValue_withStateMatrix s _ haddr hout
  | gmul =>
    cases h
    cases p with
    | gfRes => exact absurd haddr hout
    | _ => rfl
  | expand =>
    obtain ⟨-, rfl⟩ := h
    cases p with
    | status => exact absurd rfl hstatus
    | ek i =>
      simp only [placeAddress, writtenBy] at haddr hout
      omega
    | _ => rfl
  | clear =>
    cases h
    cases p with
    | status => exact absurd rfl hstatus
    | ptLen | keyLen | gfA | gfB | gfRes | pt i | key i | stateMatrix r c =>
      simp only [placeAddress, writtenBy] at haddr hout
      omega
    | _ => rfl
  | run =>
    obtain ⟨-, -, rfl⟩ := h
    cases p with
    | status => exact absurd rfl hstatus
    | traceCount | stateMatrix r c | ek i =>
      simp only [placeAddress, writtenBy] at haddr hout
      omega
    | trace k off =>
      have hoff := off.isLt
      simp only [placeAddress, writtenBy] at haddr hout
      omega
    | _ => rfl

/-- STATUS has one address (20_memory.md R61). -/
theorem place_ne_status {a : Addr} (h : a ≠ 0x000) : place a ≠ .status := by
  intro hplace
  have haddr := place_address a
  rw [hplace] at haddr
  exact h (BitVec.eq_of_toNat_eq haddr)

/-- Settles O51: an error writes no byte but STATUS, and a success its operands, each place at its address. -/
theorem commandsChangeOnlyTheirOwnBytes : Obligations.CommandsChangeOnlyTheirOwnBytes := by
  intro i s t hexec a ha hout
  have hstatus := place_ne_status ha
  obtain ⟨-, rfl⟩ | ⟨-, u, hwrites, rfl⟩ := exec_cases_outcomeCode hexec
  · exact placeValue_completeWith _ s hstatus
  · exact (placeValue_completeWith codeOk u hstatus).trans (hwrites.placeValue_eq hstatus (place_address a) hout)

/-! ### A turn of the host -/

@[simp] theorem hostWrite_trace (a : Addr) (v : Byte) (s : State) : (hostWrite a v s).trace = s.trace := by
  obtain ⟨-, h⟩ | ⟨-, -, h⟩ | ⟨-, -, h⟩ | ⟨-, -, h⟩ | ⟨-, -, h⟩ | ⟨-, -, h⟩ | ⟨-, h⟩ := hostWrite_cases a v s <;>
    simp [h]

/-- Short of a reset, no turn of the host changes the trace RAM or LAST_ERR. -/
theorem hostTurn_keeps_trace_lastErr {s t : State} (h : hostTurn s = .next t) :
    (∃ rest, s.script = .reset :: rest) ∨ (t.trace = s.trace ∧ t.lastErr = s.lastErr) := by
  obtain ⟨-, rfl⟩ | ⟨a, v, rest, -, rfl⟩ | ⟨a, rest, b, u, -, hread, rfl⟩ | ⟨rest, -, rfl⟩ | ⟨rest, hs, rfl⟩ :=
    hostTurn_cases h
  · exact .inr ⟨rfl, rfl⟩
  · exact .inr ⟨hostWrite_trace .., hostWrite_lastErr ..⟩
  · obtain ⟨-, -, -, rfl⟩ | ⟨-, -, rfl⟩ := hostRead_ok hread
    · exact .inr ⟨rfl, rfl⟩
    · exact .inr ⟨rfl, rfl⟩
  · exact .inr ⟨rfl, rfl⟩
  · exact .inl ⟨rest, hs⟩

/-- What a turn of the host does to ERR_BUSY: a busy write sets it, a reset and the acceptance of CLEAR clear it. -/
theorem hostTurn_errBusy {s t : State} (h : hostTurn s = .next t) :
    t.errBusy = s.errBusy ∨
    (s.isBusy = true ∧ (∃ a v rest, s.script = .write a v :: rest) ∧ t.errBusy = true ∧ t.lastErr = s.lastErr) ∨
    (∃ rest, s.script = .reset :: rest ∧ t.errBusy = false) ∨
    (s.isBusy = false ∧ ∃ rest, s.script = .write 0x001 0x10 :: rest ∧ t.errBusy = false) := by
  obtain ⟨-, rfl⟩ | ⟨a, v, rest, hs, rfl⟩ | ⟨a, rest, b, u, -, hread, rfl⟩ | ⟨rest, -, rfl⟩ | ⟨rest, hs, rfl⟩ :=
    hostTurn_cases h
  · exact .inl rfl
  · obtain ⟨hbusy, heq⟩ | ⟨hidle, hplace, heq⟩ | ⟨-, -, heq⟩ | ⟨-, -, heq⟩ | ⟨-, -, heq⟩ | ⟨-, -, heq⟩ | ⟨-, heq⟩ :=
      hostWrite_cases a v { s with script := rest } <;> rw [heq]
    · exact .inr (.inl ⟨hbusy, ⟨a, v, rest, hs⟩, rfl, rfl⟩)
    · rw [acceptCommand_errBusy]
      split
      · next hclear =>
        obtain rfl : v = 0x10 := (legalCommand_eq_clear v).mp ((clearsErrBusy_iff _).mp hclear)
        obtain rfl : a = 0x001 := place_eq_cmd hplace
        exact .inr (.inr (.inr ⟨hidle, rest, hs, rfl⟩))
      · exact .inl rfl
    all_goals exact .inl rfl
  · obtain ⟨-, -, -, rfl⟩ | ⟨-, -, rfl⟩ := hostRead_ok hread
    · exact .inl rfl
    · exact .inl rfl
  · exact .inl rfl
  · exact .inr (.inr (.inl ⟨rest, hs, rfl⟩))

/-! ### The step -/

theorem completeCommand_trace {p : Option Instr} {s t : State} (hrun : p ≠ some .run)
    (h : completeCommand p s = .next t) : t.trace = s.trace := by
  cases p with
  | none => cases h; rfl
  | some i =>
    obtain ⟨-, rfl⟩ | ⟨-, u, hwrites, rfl⟩ := exec_cases_outcomeCode h
    · rfl
    · exact (hwrites.simulation fun hi => hrun (congrArg some hi)).1

/-- Settles O52: among the completions RUN's alone writes the trace, and only if it succeeds; among the turns of the
host a reset alone. -/
theorem onlyRunAndResetChangeTheTrace : Obligations.OnlyRunAndResetChangeTheTrace := by
  refine ⟨fun p s t hrun => completeCommand_trace hrun, hostWrite_trace, fun s t hstep hchanged => ?_⟩
  obtain ⟨-, hturn⟩ | ⟨i, hphase, hexec⟩ | ⟨-, rfl⟩ | ⟨p, left, -, hturn⟩ := step_cases hstep
  · exact .inr ((hostTurn_keeps_trace_lastErr hturn).resolve_right fun hkept => hchanged hkept.1)
  · obtain rfl : i = .run := by
      by_contra hi
      exact hchanged (completeCommand_trace (p := some i) (fun hsome => hi (Option.some.inj hsome)) hexec)
    obtain ⟨-, rfl⟩ | ⟨-, u, -, rfl⟩ := exec_cases_outcomeCode hexec
    · exact absurd rfl hchanged
    · exact .inl ⟨hphase, rfl⟩
  · exact absurd rfl hchanged
  · exact .inr ((hostTurn_keeps_trace_lastErr hturn).resolve_right fun hkept => hchanged hkept.1)

/-- Settles O54: short of a reset a turn of the host keeps LAST_ERR, and every other step is a completion. -/
theorem lastErrChangesOnlyAtCompletionOrReset : Obligations.LastErrChangesOnlyAtCompletionOrReset := by
  intro s t hstep hchanged
  obtain ⟨-, hturn⟩ | ⟨i, hphase, -⟩ | ⟨hphase, -⟩ | ⟨p, left, -, hturn⟩ := step_cases hstep
  · exact .inr ((hostTurn_keeps_trace_lastErr hturn).resolve_right fun hkept => hchanged hkept.2)
  · exact .inl ⟨some i, hphase⟩
  · exact .inl ⟨none, hphase⟩
  · exact .inr ((hostTurn_keeps_trace_lastErr hturn).resolve_right fun hkept => hchanged hkept.2)

/-- What a step does to ERR_BUSY: a completion leaves it, and a turn of the host does what is said of it. -/
theorem step_errBusy {s t : State} (h : step s = .next t) :
    t.errBusy = s.errBusy ∨
    (s.isBusy = true ∧ (∃ a v rest, s.script = .write a v :: rest) ∧ t.errBusy = true ∧ t.lastErr = s.lastErr) ∨
    (∃ rest, s.script = .reset :: rest ∧ t.errBusy = false) ∨
    (s.phase = .idle ∧ ∃ rest, s.script = .write 0x001 0x10 :: rest ∧ t.errBusy = false) := by
  obtain ⟨hidle, hturn⟩ | ⟨i, -, hexec⟩ | ⟨-, rfl⟩ | ⟨p, left, hphase, hturn⟩ := step_cases h
  · obtain hkept | hset | hreset | ⟨-, hclear⟩ := hostTurn_errBusy hturn
    · exact .inl hkept
    · exact .inr (.inl hset)
    · exact .inr (.inr (.inl hreset))
    · exact .inr (.inr (.inr ⟨hidle, hclear⟩))
  · exact .inl (exec_frame hexec).1
  · exact .inl rfl
  · obtain hkept | ⟨-, hset⟩ | hreset | ⟨hidle, -⟩ := hostTurn_errBusy hturn
    · exact .inl hkept
    · exact .inr (.inl ⟨isBusy_eq_true hphase, hset⟩)
    · exact .inr (.inr (.inl hreset))
    · cases hidle

/-- Settles O53: a busy write is dropped, and by what a step does to ERR_BUSY. -/
theorem errBusyIsSticky : Obligations.ErrBusyIsSticky := by
  refine ⟨fun s p left a v rest hphase hscript => ?_, fun s t hstep hbefore hafter => ?_,
    fun s t hstep hbefore hafter => ?_⟩
  · rw [step_busy_cons hphase hscript, performAction, hostWrite_of_busy a v rfl]
  · obtain hkept | ⟨hbusy, hwrite, -, hcode⟩ | ⟨rest, -, hclear⟩ | ⟨-, rest, -, hclear⟩ := step_errBusy hstep
    · rw [hbefore, hafter] at hkept; cases hkept
    · exact ⟨hbusy, hwrite, hcode⟩
    · rw [hafter] at hclear; cases hclear
    · rw [hafter] at hclear; cases hclear
  · obtain hkept | ⟨-, -, hset, -⟩ | ⟨rest, hreset, -⟩ | ⟨hidle, rest, hwrite, -⟩ := step_errBusy hstep
    · rw [hbefore, hafter] at hkept; cases hkept
    · rw [hafter] at hset; cases hset
    · exact .inl ⟨rest, hreset⟩
    · exact .inr ⟨hidle, rest, hwrite⟩

end Sys2Proof.Machine
end

section
/-! PROOFS. The busy period (10_state.md R37; 70_reset_and_hazards.md R251): each turn uses up one of the turns left and,
short of a reset, keeps the engine as it was accepted; and what a command computes does not depend on what such turns
change. -/

namespace Sys2Proof.Machine

/-! ### The same engine -/

theorem SameEngine.refl (s : State) : SameEngine s s := by
  constructor <;> rfl

theorem SameEngine.trans {s t u : State} (h : SameEngine s t) (h' : SameEngine t u) : SameEngine s u where
  cmd := h'.cmd.trans h.cmd
  ekValid := h'.ekValid.trans h.ekValid
  simValid := h'.simValid.trans h.simValid
  lastErr := h'.lastErr.trans h.lastErr
  ptLen := h'.ptLen.trans h.ptLen
  keyLen := h'.keyLen.trans h.keyLen
  gfA := h'.gfA.trans h.gfA
  gfB := h'.gfB.trans h.gfB
  gfRes := h'.gfRes.trans h.gfRes
  traceCount := h'.traceCount.trans h.traceCount
  pt := h'.pt.trans h.pt
  key := h'.key.trans h.key
  stateMatrix := h'.stateMatrix.trans h.stateMatrix
  ek := h'.ek.trans h.ek
  trace := h'.trace.trans h.trace

section

variable {s t : State} (h : SameEngine s t)
include h

theorem SameEngine.completeWith (code : BitVec 3) :
    SameEngine (Machine.completeWith code s) (Machine.completeWith code t) :=
  { h with lastErr := rfl }

theorem SameEngine.outcomeCode (i : Instr) : Machine.outcomeCode i t = Machine.outcomeCode i s := by
  simp only [Machine.outcomeCode, h.ptLen, h.keyLen, h.ekValid]

theorem SameEngine.storeSimulation (sim : Simulation) :
    SameEngine (Machine.storeSimulation sim s) (Machine.storeSimulation sim t) :=
  { h with
    ekValid := rfl, simValid := rfl, traceCount := rfl, ek := rfl, trace := rfl, stateMatrix := rfl }

/-- The writes of a command are a function of the engine alone. -/
theorem SameEngine.commandWrites {i : Instr} {u v : State} (hu : CommandWrites i s u) (hv : CommandWrites i t v) :
    SameEngine u v := by
  cases i with
  | nop => cases hu; cases hv; exact h
  | clear =>
    cases hu; cases hv
    exact { h with
      ekValid := rfl, ptLen := rfl, keyLen := rfl, gfA := rfl, gfB := rfl, gfRes := rfl, pt := rfl, key := rfl
      stateMatrix := rfl }
  | load =>
    obtain ⟨-, rfl⟩ := hu
    obtain ⟨-, rfl⟩ := hv
    exact { h with stateMatrix := congrArg toMatrix h.pt }
  | expand =>
    obtain ⟨-, rfl⟩ := hu
    obtain ⟨-, rfl⟩ := hv
    exact { h with ekValid := rfl, ek := congrArg expandKey h.key }
  | subb => cases hu; cases hv; exact { h with stateMatrix := congrArg subBytes h.stateMatrix }
  | shfr => cases hu; cases hv; exact { h with stateMatrix := congrArg shiftRows h.stateMatrix }
  | mixc => cases hu; cases hv; exact { h with stateMatrix := congrArg mixColumns h.stateMatrix }
  | ark n =>
    obtain ⟨-, hround, rfl⟩ := hu
    obtain ⟨-, -, rfl⟩ := hv
    exact { h with
      stateMatrix := congrArg₂ (fun m ek => addRoundKey m (roundKey ek ⟨n.toNat, hround⟩)) h.stateMatrix h.ek }
  | gmul => cases hu; cases hv; exact { h with gfRes := congrArg₂ Machine.gmul h.gfA h.gfB }
  | run =>
    obtain ⟨-, -, rfl⟩ := hu
    obtain ⟨-, -, rfl⟩ := hv
    have hsim : generateSimulation t.pt t.key = generateSimulation s.pt s.key := by rw [h.pt, h.key]
    rw [hsim]
    exact h.storeSimulation _

/-- The same command on the same engine leaves the same engine. -/
theorem SameEngine.exec {i : Instr} {u v : State} (hu : exec i s = .next u) (hv : exec i t = .next v) :
    SameEngine u v := by
  have hsame := h.outcomeCode i
  obtain ⟨hcode, rfl⟩ | ⟨hcode, u', hu', rfl⟩ := exec_cases_outcomeCode hu
  · obtain ⟨-, rfl⟩ | ⟨hcode', -⟩ := exec_cases_outcomeCode hv
    · rw [hsame]
      exact h.completeWith _
    · exact absurd (hsame.symm.trans hcode') hcode
  · obtain ⟨hcode', -⟩ | ⟨-, v', hv', rfl⟩ := exec_cases_outcomeCode hv
    · exact absurd (hsame.trans hcode) hcode'
    · exact (h.commandWrites hu' hv').completeWith codeOk

end

/-! ### One turn of the busy period -/

/-- A turn of a busy engine uses up one of its turns; it is a reset, or it keeps the engine and leaves the script or its
tail. -/
theorem step_busy_turn {s : State} {p : Option Instr} {left : Nat} (hphase : s.phase = .busy p (left + 1))
    (hcode : s.lastErr ≤ 3) : ∃ t, step s = .next t ∧
      ((∃ rest, s.script = .reset :: rest ∧ t.phase = .idle) ∨
        (t.phase = .busy p left ∧ SameEngine s t ∧ (t.script = s.script ∨ t.script = s.script.tail))) := by
  obtain ⟨t, hstep⟩ := step_total hcode
  refine ⟨t, hstep, ?_⟩
  rw [step_busy hphase] at hstep
  obtain ⟨-, rfl⟩ | ⟨a, v, rest, hs, rfl⟩ | ⟨a, rest, b, u, hs, hread, rfl⟩ | ⟨rest, hs, rfl⟩ | ⟨rest, hs, rfl⟩ :=
    hostTurn_cases hstep
  · exact .inr ⟨rfl, by constructor <;> rfl, .inl rfl⟩
  · rw [hostWrite_of_busy a v rfl]
    exact .inr ⟨rfl, by constructor <;> rfl, .inr (congrArg List.tail hs).symm⟩
  · obtain ⟨-, -, -, rfl⟩ | ⟨-, -, rfl⟩ := hostRead_ok hread
    · exact .inr ⟨rfl, by constructor <;> rfl, .inr (congrArg List.tail hs).symm⟩
    · exact .inr ⟨rfl, by constructor <;> rfl, .inr (congrArg List.tail hs).symm⟩
  · exact .inr ⟨rfl, by constructor <;> rfl, .inl hs.symm⟩
  · exact .inl ⟨rest, hs, rfl⟩

theorem not_mem_take_of_tail {l l' : List Action} {left : Nat} (h : .reset ∉ l.take (left + 1))
    (hl : l' = l ∨ l' = l.tail) : .reset ∉ l'.take left := by
  obtain rfl | rfl := hl
  · exact fun hmem => h (List.take_subset_take_left _ (Nat.le_succ left) hmem)
  · cases l with
    | nil => simp
    | cons act rest => exact fun hmem => h (List.mem_cons_of_mem act hmem)

/-! ### The whole busy period -/

/-- Short of a reset, a run through the turns left comes to the engine of the start with its completion due. -/
theorem run_through_turns {s : State} {p : Option Instr} {left : Nat} (hphase : s.phase = .busy p left)
    (hcode : s.lastErr ≤ 3) (hreset : .reset ∉ s.script.take left) :
    ∃ t, t.phase = .busy p 0 ∧ SameEngine s t ∧
      ∀ n, Host.Core.run Sys2Proof.core (n + left) s = Host.Core.run Sys2Proof.core n t := by
  induction left generalizing s with
  | zero => exact ⟨s, hphase, .refl s, fun _ => rfl⟩
  | succ left ih =>
    obtain ⟨t, hstep, ⟨rest, hs, -⟩ | ⟨hphase', hsame, hscript⟩⟩ := step_busy_turn hphase hcode
    · rw [hs] at hreset
      exact absurd List.mem_cons_self hreset
    · obtain ⟨u, hdue, hsame', hrun⟩ :=
        ih hphase' (hsame.lastErr.symm ▸ hcode) (not_mem_take_of_tail hreset hscript)
      exact ⟨u, hdue, hsame.trans hsame', fun n => (run_succ_of_step (n + left) hstep).trans (hrun n)⟩

theorem completeCommand_idle {p : Option Instr} {s t : State} (h : completeCommand p s = .next t) :
    t.phase = .idle := by
  cases p with
  | none => cases h; rfl
  | some i =>
    obtain ⟨-, -, -, hidle⟩ := exec_frame h
    exact hidle

/-- With no turn left the step completes. -/
theorem step_completes {s : State} {p : Option Instr} (hphase : s.phase = .busy p 0) :
    ∃ t, step s = .next t ∧ t.phase = .idle := by
  obtain ⟨t, ht⟩ := completeCommand_total p s
  exact ⟨t, by simpa [step, turn, hphase] using ht, completeCommand_idle ht⟩

theorem run_one_of_step {s t : State} (h : step s = .next t) : Host.Core.run Sys2Proof.core 1 s = .next t :=
  run_succ_of_step 0 h

/-- A reset in the busy period ends it too, earlier. -/
theorem idle_within_turns {s : State} {p : Option Instr} {left : Nat} (hphase : s.phase = .busy p left)
    (hcode : s.lastErr ≤ 3) :
    ∃ k t, k ≤ left + 1 ∧ Host.Core.run Sys2Proof.core k s = .next t ∧ t.phase = .idle := by
  induction left generalizing s with
  | zero =>
    obtain ⟨t, hstep, hidle⟩ := step_completes hphase
    exact ⟨1, t, Nat.le_refl 1, run_one_of_step hstep, hidle⟩
  | succ left ih =>
    obtain ⟨t, hstep, ⟨-, -, hidle⟩ | ⟨hphase', hsame, -⟩⟩ := step_busy_turn hphase hcode
    · exact ⟨1, t, by omega, run_one_of_step hstep, hidle⟩
    · obtain ⟨k, u, hk, hrun, hidle⟩ := ih hphase' (hsame.lastErr.symm ▸ hcode)
      exact ⟨k + 1, u, by omega, (run_succ_of_step k hstep).trans hrun, hidle⟩

/-- Settles O58: each turn uses one up, and the step after the last completes. -/
theorem everyAcceptedCommandCompletes : Obligations.EveryAcceptedCommandCompletes := by
  refine fun s p left hphase hcode => ⟨idle_within_turns hphase hcode, fun hreset => ?_⟩
  obtain ⟨t, hdue, -, hrun⟩ := run_through_turns hphase hcode hreset
  obtain ⟨u, hstep, hidle⟩ := step_completes hdue
  exact ⟨u, by rw [Nat.add_comm, hrun 1, run_one_of_step hstep], hidle⟩

/-- Settles O59: the turns keep the engine, and a command depends on nothing else. -/
theorem pendingResultIsFixedAtAcceptance : Obligations.PendingResultIsFixedAtAcceptance := by
  intro s i left hphase hcode hreset
  obtain ⟨t, hdue, hsame, hrun⟩ := run_through_turns hphase hcode hreset
  obtain ⟨u, hu, -⟩ := exec_records_outcomeCode i s
  obtain ⟨v, hv, -⟩ := exec_records_outcomeCode i t
  have hturns : Host.Core.run Sys2Proof.core left s = .next t := by
    rw [← Nat.zero_add left, hrun 0]
    rfl
  exact ⟨t, hturns, hdue, hsame, u, v, hu, (step_due hdue).trans hv, hsame.exec hu hv,
    completeCommand_idle (p := some i) hu, completeCommand_idle (p := some i) hv⟩

end Sys2Proof.Machine
end
